-- ==== Sys2Proof/Word.lean ====
section
/-! DEFINITION. The plain word types of the Controller: bytes on its lines, check values and the window bitmap. -/

namespace Sys2Proof

/-- One byte of a frame on the radio line, the sense line or the service line. -/
abbrev Byte := BitVec 8

/-- A CRC-16 register or check value (R9). -/
abbrev Check16 := BitVec 16

/-- The 32 marks of the serial window, bit `i` standing for serial base + 1 + `i` (R20, R27). -/
abbrev Marks := BitVec 32

end Sys2Proof
end

