-- ==== Sys2Proof/Config.lean ====
section
/-! DEFINITION. The fixed figures of the part, and the free values the spec leaves open. -/

namespace Sys2Proof

/-- The free value behind every uniform random delay or factor of R119, R121, R133 and R157 and behind the
word addresses that R173 captures (the spec gives no layout of the words). It has no body, so nothing can be
proved of the value drawn; the controller's draw counter picks a fresh one at each use (notes/assumptions/3.md). -/
opaque Config.draw : Nat → Nat

/-- The Wh quantum Q in energy units (0.10). -/
def Config.quantum : Nat := 90000000

/-- One watt in energy units per one-second sample (0.10). -/
def Config.wattUnits : Nat := 25000

/-- The ceiling of the energy balance in Wh (R20). -/
def Config.energyMax : Nat := 999999

/-- The ceiling of the time credit in seconds, 400 days (R20). -/
def Config.timeMax : Nat := 34560000

/-- The greatest kit number (0.11). -/
def Config.kitMax : Nat := 99999999

/-- The greatest voucher serial (R1). -/
def Config.serialMax : Nat := 9999

/-- The last district day (0.10). -/
def Config.dayMax : Nat := 65535

/-- The last second of a day (0.10). -/
def Config.secondMax : Nat := 86399

/-- The greatest sequence a page can carry (R160). -/
def Config.sequenceMax : Nat := 4294967294

/-- The greatest value of a 32-bit count: lifetime energy (R20) and the arrival sequence (R97). -/
def Config.count32Max : Nat := 4294967295

/-- The ceiling of the receipt serial reserve (R40). -/
def Config.reserveMax : Nat := 65536

end Sys2Proof
end

