-- ==== Sys2Proof/Syntax.lean ====
section
/-! DEFINITION. The commands of the Controller: one constructor of `Instr` for each row of spec/opcode_table.json,
with the operands an arrival carries, and the types of those operands. -/

namespace Sys2Proof

/-- The station roles (R192); `ordinary` is code 1 and `agent` code 2. -/
inductive Role where
  | ordinary | agent
  deriving DecidableEq, Repr

/-- How the station's district time was obtained (R82). -/
inductive TimeState where
  | unset | provisional | set
  deriving DecidableEq, Repr

/-- The eight account states (R23). -/
inductive AccountState where
  | uncommissioned | held | owned | timed | credited | low | lifeline | locked
  deriving DecidableEq, Repr

/-- The thirteen conditions (R42). -/
inductive Condition where
  | storeFull | corrected | senseHold | relaySuspended | voucherRefused | tripped | overrange
  | timeUnset | senseLost | journalFault | bypass | storeFault | held
  deriving DecidableEq, Repr

/-- What a receipt says became of a voucher, or that it is a STATUS report (R7). -/
inductive ReceiptOutcome where
  | applied | badTag | badForm | expired | full | ahead | status
  deriving DecidableEq, Repr

/-- The Account Unit's outcome answers (R28). -/
inductive Answer where
  | applied | badTag | badForm | expired | duplicate | pending | notTaken
  deriving DecidableEq, Repr

/-- The Meter's verdict on one sample in LIFELINE (R58). -/
inductive CapVerdict where
  | over | within
  deriving DecidableEq, Repr

/-- What a block tells the Account Unit about a condition (R42, R43). -/
inductive ConditionNews where
  /-- The owner of the condition's cause reports it, and the Account Unit raises it. -/
  | raised (c : Condition)
  /-- The Meter reports that the supply band is NORMAL, which clears RELAY-SUSPENDED (R68). -/
  | bandNormal
  deriving DecidableEq, Repr

/-- The two kinds of commit request (R163). -/
inductive CommitKind where
  | staged | periodic
  deriving DecidableEq, Repr

/-- The two types of item key (R1). -/
inductive KeyType where
  | voucher | receipt
  deriving DecidableEq, Repr

/-- An item key: a type, a kit number and a serial (R1). -/
structure ItemKey where
  type : KeyType
  kit : Nat
  serial : Nat
  deriving DecidableEq, Repr

/-- A key as its 7 bytes on the air spell it, valid or malformed (R2). -/
structure AirKey where
  type : Nat
  kit : Nat
  serial : Nat
  deriving DecidableEq, Repr

/-- A key of a HAIL's offer list with its hop byte (R2, R145). -/
structure OfferedKey where
  key : AirKey
  hop : Nat
  deriving DecidableEq, Repr

/-- The 17-byte voucher item of a CARRY as it is read from the air (R17, R18). -/
structure VoucherItem where
  target : Nat
  serial : Nat
  kind : Nat
  amount : Nat
  useBy : Nat
  tag : Nat
  hop : Nat
  deriving DecidableEq, Repr

/-- The 30-byte receipt item of a CARRY as it is read from the air (R17, R19). -/
structure ReceiptItem where
  origin : Nat
  serial : Nat
  created : Nat
  outcomeByte : Nat
  voucherSerial : Nat
  stateCode : Nat
  energy : Nat
  hours : Nat
  lifetime : Nat
  conditions : Nat
  bypass : Nat
  corrected : Nat
  uncorrected : Nat
  discards : Nat
  hop : Nat
  deriving DecidableEq, Repr

/-- The header fields of a radio frame besides its kind and class (R145). -/
structure FrameHeader where
  sender : Nat
  addressee : Nat
  day : Nat
  agent : Bool
  timeSet : Bool
  relaySuspended : Bool
  exchange : Nat
  deriving DecidableEq, Repr

/-- A HAIL frame (R145). -/
structure HailFrame where
  header : FrameHeader
  day : Nat
  second : Nat
  freeVouchers : Nat
  freeReceipts : Nat
  offers : List OfferedKey
  deriving DecidableEq, Repr

/-- An ASK frame (R145). -/
structure AskFrame where
  header : FrameHeader
  keys : List AirKey
  deriving DecidableEq, Repr

/-- A CARRY frame (R126, R145). -/
structure CarryFrame where
  header : FrameHeader
  burst : Nat
  last : Bool
  vouchers : List VoucherItem
  receipts : List ReceiptItem
  deriving DecidableEq, Repr

/-- A TOOK frame (R145). -/
structure TookFrame where
  header : FrameHeader
  burst : Nat
  keys : List AirKey
  deriving DecidableEq, Repr

/-- A key of the keypad matrix (R180). -/
inductive Key where
  | digit (d : Fin 10)
  | star
  | hash
  deriving DecidableEq, Repr

/-- The commands: one constructor for each row of the opcode table, named after it. The operand `busy` of a
command is the level of the channel-busy input at the moment the command is taken (R144); the spec gives the input
and the table has no row for its edges (notes/assumptions/4.md). -/
inductive Instr where
  /-- COLD_START (R21): both power domains come up from no power. -/
  | coldStart
  /-- MAIN_START (R21): the main domain starts with the always-on domain kept. -/
  | mainStart
  /-- MAIN_POWER_LOSS (R162). -/
  | mainPowerLoss
  /-- POWER_FAIL_WARNING (R163). -/
  | powerFailWarning
  /-- WRITE_SAFE_RISE (R164). -/
  | writeSafeRise
  /-- WRITE_SAFE_FALL (R168). -/
  | writeSafeFall
  /-- WHOLE_SECOND (R83). -/
  | wholeSecond
  /-- SECOND_EVENT_ACCOUNT (R25). -/
  | secondEventAccount
  /-- SECOND_EVENT_METER (R49). -/
  | secondEventMeter
  /-- SECOND_EVENT_SWITCH (R76). -/
  | secondEventSwitch
  /-- TRIP_HOLD_END (R76). -/
  | tripHoldEnd
  /-- SAMPLE_REPLY (R50): the fourth reply byte has arrived; the four bytes of the reply. -/
  | sampleReply (b1 b2 b3 b4 : Byte)
  /-- REPLY_WINDOW_EXPIRY (R50). -/
  | replyWindowExpiry
  /-- STRAY_SENSE_BYTE (R50). -/
  | straySenseByte (b : Byte)
  /-- CHARGE_REPORT (R26). -/
  | chargeReport
  /-- LIFETIME_REPORT (R56). -/
  | lifetimeReport
  /-- BYPASS_REPORT (R55). -/
  | bypassReport
  /-- GOOD_SAMPLE_REPORT (R59). -/
  | goodSampleReport
  /-- CONDITION_REPORT (R42). -/
  | conditionReport (news : ConditionNews)
  /-- CAP_VERDICT (R74). -/
  | capVerdict (v : CapVerdict)
  /-- ACCOUNT_STATE_TO_SWITCH (R71). -/
  | accountStateToSwitch (st : AccountState)
  /-- HAIL_TIME_ARRIVAL (R85): a good HAIL at the District Clock. -/
  | hailTimeArrival (sender : Nat) (agent timeSet : Bool) (day second : Nat)
  /-- TIME_STATE_REPORT (R93). -/
  | timeStateReport (st : TimeState)
  /-- DAY_ROLLOVER_ACCOUNT (R46). -/
  | dayRolloverAccount (day : Nat)
  /-- DAY_ROLLOVER_STORE (R112). -/
  | dayRolloverStore (day : Nat)
  /-- DAY_ROLLOVER_JOURNAL (R163). -/
  | dayRolloverJournal (day : Nat)
  /-- ABSENCE_RESET (R94). -/
  | absenceReset
  /-- HAIL_TIMER_EXPIRY (R121). -/
  | hailTimerExpiry (busy : Bool)
  /-- BACKOFF_TIMER_EXPIRY (R157). -/
  | backoffTimerExpiry (busy : Bool)
  /-- TRANSMISSION_END (R151). -/
  | transmissionEnd (busy : Bool)
  /-- ASK_DEADLINE (R159). -/
  | askDeadline (busy : Bool)
  /-- ASK_WINDOW_CLOSE (R124): 1,500 ms have passed, or, in the extension, the channel is free or 2,200 ms more have passed. -/
  | askWindowClose (busy : Bool)
  /-- TOOK_WAIT_EXPIRY (R127). -/
  | tookWaitExpiry (busy : Bool)
  /-- ASK_DELAY_EXPIRY (R133). -/
  | askDelayExpiry (busy : Bool)
  /-- CARRY_TIMEOUT (R134). -/
  | carryTimeout
  /-- HAIL_RECEIVED (R132): a good HAIL at the Exchange Engine. -/
  | hailReceived (f : HailFrame)
  /-- ASK_RECEIVED (R123). -/
  | askReceived (f : AskFrame)
  /-- CARRY_RECEIVED (R135). -/
  | carryReceived (f : CarryFrame) (busy : Bool)
  /-- TOOK_RECEIVED (R127). -/
  | tookReceived (f : TookFrame) (busy : Bool)
  /-- DOZE_SAMPLE (R148): a channel sample begins; whether channel-busy is asserted in it. -/
  | dozeSample (busy : Bool)
  /-- DOZE_SAMPLE_END (R148). -/
  | dozeSampleEnd
  /-- START_MARK_FOUND (R149). -/
  | startMarkFound
  /-- HEADER_CLASS_INVALID (R150). -/
  | headerClassInvalid
  /-- FRAME_TRUNCATED (R150). -/
  | frameTruncated
  /-- FRAME_COMPLETE (R150, R152): the bytes received since the start mark, or since the last such command. -/
  | frameComplete (bytes : List Byte)
  /-- LISTEN_HOLD_EXPIRY (R149). -/
  | listenHoldExpiry
  /-- STAGED_COMMIT_VERIFIED (R32), with the reserve the page carries. -/
  | stagedCommitVerified (reserve : Nat)
  /-- PERIODIC_COMMIT_VERIFIED (R166): with the reserve the page carries. -/
  | periodicCommitVerified (reserve : Nat)
  /-- COMMIT_INHIBITED_REPORT (R33). -/
  | commitInhibitedReport
  /-- COMMIT_FAILED_REPORT (R33, R167). -/
  | commitFailedReport (kind : CommitKind)
  /-- PAGE_PROGRAM_DONE (R166): whether the nonvolatile store took the data it was given. -/
  | pageProgramDone (intact : Bool)
  /-- VERIFY_DONE (R166): whether the read-back is true to what the store holds. -/
  | verifyDone (readTrue : Bool)
  /-- RECOVERY_SCAN_COMPLETE (R169). -/
  | recoveryScanComplete
  /-- RELOAD_SCAN_COMPLETE (R24). -/
  | reloadScanComplete
  /-- KEY_PRESS (R181). -/
  | keyPress (k : Key)
  /-- INTER_KEY_TIMEOUT (R181). -/
  | interKeyTimeout
  /-- OUTCOME_ANSWER (R183): the answer to the keypad unit's evaluation numbered `n`. -/
  | outcomeAnswer (n : Nat) (a : Answer)
  /-- ANSWER_WAIT_EXPIRY (R183). -/
  | answerWaitExpiry
  /-- DISPLAY_TIMER (R184). -/
  | displayTimer
  /-- FLASH_TIMER_EXPIRY (R187). -/
  | flashTimerExpiry
  /-- SERVICE_FRAME_DISCARD (R189). -/
  | serviceFrameDiscard
  /-- SERVICE_INTER_BYTE_TIMEOUT (R189). -/
  | serviceInterByteTimeout
  /-- UNKNOWN_COMMAND (R190): a frame with this command code, which R191 does not list. -/
  | unknownCommand (code : Byte) (body : List Byte)
  /-- IDENTIFY (R191). -/
  | identify (body : List Byte)
  /-- COMMISSION (R194). -/
  | commission (body : List Byte)
  /-- COMMISSION_COMPLETE (R170). -/
  | commissionComplete
  /-- SET_TIME (R197). -/
  | setTime (body : List Byte)
  /-- STATUS (R193). -/
  | status (body : List Byte)
  /-- INJECT (R195). -/
  | inject (body : List Byte)
  /-- COLLECT (R196). -/
  | collect (body : List Byte)
  /-- ARM_FAULT (R179). -/
  | armFault (body : List Byte)
  /-- RESTART (R197). -/
  | restart (body : List Byte)
  /-- DECOMMISSION (R198). -/
  | decommission (body : List Byte)
  /-- ERASURE_COMPLETE (R171). -/
  | erasureComplete
  /-- RESPONSE_SENT (R190). -/
  | responseSent
  /-- HUNT_BYTE (R189): a byte on the service line's receive input. -/
  | huntByte (b : Byte)
  /-- ALWAYS_ON_SUPPLY_LOSS (R82). -/
  | alwaysOnSupplyLoss
  deriving DecidableEq, Repr

end Sys2Proof
end

