-- ==== Sys2Proof/WellFormed.lean ====
section
/-! DEFINITION. Which operands a command can carry: the ranges that the fields of a frame, a record or a report have
on their line or in their block. `exec` has a meaning on every command; the invariants assume well-formed ones. -/

namespace Sys2Proof

/-- A district day (0.10). -/
def dayInRange (d : Nat) : Bool := decide (d ≤ Config.dayMax)

/-- A second of the day (0.10). -/
def secondInRange (s : Nat) : Bool := decide (s ≤ Config.secondMax)

/-- The 7 bytes of a key on the air: 1, 4 and 2 bytes (R2). -/
def AirKey.inBytes (k : AirKey) : Bool :=
  decide (k.type < 2 ^ 8) && decide (k.kit < 2 ^ 32) && decide (k.serial < 2 ^ 16)

/-- An offered key with its hop byte (R145). -/
def OfferedKey.inBytes (o : OfferedKey) : Bool := o.key.inBytes && decide (o.hop < 2 ^ 8)

/-- The 17 bytes of a voucher item (R17). -/
def VoucherItem.inBytes (v : VoucherItem) : Bool :=
  decide (v.target < 2 ^ 32) && decide (v.serial < 2 ^ 16) && decide (v.kind < 2 ^ 8) && decide (v.amount < 2 ^ 24)
    && decide (v.useBy < 2 ^ 16) && decide (v.tag < 2 ^ 32) && decide (v.hop < 2 ^ 8)

/-- The 30 bytes of a receipt item (R17). -/
def ReceiptItem.inBytes (r : ReceiptItem) : Bool :=
  decide (r.origin < 2 ^ 32) && decide (r.serial < 2 ^ 16) && decide (r.created < 2 ^ 16) && decide (r.outcomeByte < 2 ^ 8)
    && decide (r.voucherSerial < 2 ^ 16) && decide (r.stateCode < 2 ^ 8) && decide (r.energy < 2 ^ 24)
    && decide (r.hours < 2 ^ 16) && decide (r.lifetime < 2 ^ 32) && decide (r.conditions < 2 ^ 16)
    && decide (r.bypass < 2 ^ 16) && decide (r.corrected < 2 ^ 8) && decide (r.uncorrected < 2 ^ 8)
    && decide (r.discards < 2 ^ 16) && decide (r.hop < 2 ^ 8)

/-- The header of a good frame: its sender is a kit number (R152), its other fields fit their bytes (R145). -/
def FrameHeader.good (h : FrameHeader) : Bool :=
  decide (1 ≤ h.sender) && decide (h.sender ≤ Config.kitMax) && decide (h.addressee < 2 ^ 32) && decide (h.day < 2 ^ 16)
    && decide (h.exchange < 2 ^ 8)

/-- A good HAIL (R152): at most 10 keys, free slot counts to 48, one day in header and payload. -/
def HailFrame.good (f : HailFrame) : Bool :=
  f.header.good && decide (f.day = f.header.day) && decide (f.second < 2 ^ 24) && decide (f.freeVouchers ≤ 48)
    && decide (f.freeReceipts ≤ 48) && decide (f.offers.length ≤ 10) && f.offers.all OfferedKey.inBytes

/-- A good ASK (R152): at most 6 keys. -/
def AskFrame.good (f : AskFrame) : Bool :=
  f.header.good && decide (f.keys.length ≤ 6) && f.keys.all AirKey.inBytes

/-- A good CARRY (R152): at most 4 items. -/
def CarryFrame.good (f : CarryFrame) : Bool :=
  f.header.good && decide (f.burst < 2 ^ 8) && decide (f.vouchers.length + f.receipts.length ≤ 4)
    && f.vouchers.all VoucherItem.inBytes && f.receipts.all ReceiptItem.inBytes

/-- A good TOOK (R152): at most 4 keys. -/
def TookFrame.good (f : TookFrame) : Bool :=
  f.header.good && decide (f.burst < 2 ^ 8) && decide (f.keys.length ≤ 4) && f.keys.all AirKey.inBytes

/-- Bytes of one radio frame after its start mark: at most 14 header bytes, the payload of class 3 and 2 CRC bytes (R145). -/
def frameBytesInRange (bytes : List Byte) : Bool := decide (bytes.length ≤ 144)

/-- The reserve a page carries: 16 to 65,536 in steps of 16 (R160). -/
def reserveInRange (r : Nat) : Bool := decide (16 ≤ r) && decide (r ≤ Config.reserveMax) && decide (r % 16 = 0)

/-- A service body: at most 200 bytes (R188). -/
def bodyInRange (body : List Byte) : Bool := decide (body.length ≤ 200)

/-- The command codes that R191 lists are 01h to 09h. -/
def unknownCode (code : Byte) : Bool := decide (code.toNat = 0) || decide (9 < code.toNat)

/-- The operands a command can carry. -/
def Instr.wellFormed : Instr → Bool
  | .coldStart => true
  | .mainStart => true
  | .mainPowerLoss => true
  | .powerFailWarning => true
  | .writeSafeRise => true
  | .writeSafeFall => true
  | .wholeSecond => true
  | .secondEventAccount => true
  | .secondEventMeter => true
  | .secondEventSwitch => true
  | .tripHoldEnd => true
  | .sampleReply _ _ _ _ => true
  | .replyWindowExpiry => true
  | .straySenseByte _ => true
  | .chargeReport => true
  | .lifetimeReport => true
  | .bypassReport => true
  | .goodSampleReport => true
  | .conditionReport _ => true
  | .capVerdict _ => true
  | .accountStateToSwitch _ => true
  | .hailTimeArrival sender _ _ day second => decide (sender < 2 ^ 32) && decide (day < 2 ^ 16) && decide (second < 2 ^ 24)
  | .timeStateReport _ => true
  | .dayRolloverAccount day => dayInRange day
  | .dayRolloverStore day => dayInRange day
  | .dayRolloverJournal day => dayInRange day
  | .absenceReset => true
  | .hailTimerExpiry _ => true
  | .backoffTimerExpiry _ => true
  | .transmissionEnd _ => true
  | .askDeadline _ => true
  | .askWindowClose _ => true
  | .tookWaitExpiry _ => true
  | .askDelayExpiry _ => true
  | .carryTimeout => true
  | .hailReceived f => f.good
  | .askReceived f => f.good
  | .carryReceived f _ => f.good
  | .tookReceived f _ => f.good
  | .dozeSample _ => true
  | .dozeSampleEnd => true
  | .startMarkFound => true
  | .headerClassInvalid => true
  | .frameTruncated => true
  | .frameComplete bytes => frameBytesInRange bytes
  | .listenHoldExpiry => true
  | .stagedCommitVerified reserve => reserveInRange reserve
  | .periodicCommitVerified reserve => reserveInRange reserve
  | .commitInhibitedReport => true
  | .commitFailedReport _ => true
  | .pageProgramDone _ => true
  | .verifyDone _ => true
  | .recoveryScanComplete => true
  | .reloadScanComplete => true
  | .keyPress _ => true
  | .interKeyTimeout => true
  | .outcomeAnswer _ _ => true
  | .answerWaitExpiry => true
  | .displayTimer => true
  | .flashTimerExpiry => true
  | .serviceFrameDiscard => true
  | .serviceInterByteTimeout => true
  | .unknownCommand code body => unknownCode code && bodyInRange body
  | .identify body => bodyInRange body
  | .commission body => bodyInRange body
  | .commissionComplete => true
  | .setTime body => bodyInRange body
  | .status body => bodyInRange body
  | .inject body => bodyInRange body
  | .collect body => bodyInRange body
  | .armFault body => bodyInRange body
  | .restart body => bodyInRange body
  | .decommission body => bodyInRange body
  | .erasureComplete => true
  | .responseSent => true
  | .huntByte _ => true
  | .alwaysOnSupplyLoss => true

end Sys2Proof
end

