-- ==== Sys2Proof/Machine/State.lean ====
section
/-! DEFINITION. The state of the Controller, block by block as the chapters list it, the queue of waiting commands, and
the state after reset. -/

namespace Sys2Proof.Machine

/-- The Memory Check Unit's capture mode (R177, R192). -/
inductive CaptureMode where
  | first | last
  deriving DecidableEq, Repr

/-- The values COMMISSION loads (R192). -/
structure Params where
  kit : Nat
  key : List Byte
  role : Role
  wake : Nat
  listenHold : Nat
  hailPeriod : Nat
  hopLimit : Nat
  burst : Nat
  allowance : Nat
  cap : Nat
  lowThreshold : Nat
  fallback : Nat
  relayCutoff : Nat
  receiptLife : Nat
  reportInterval : Nat
  capture : CaptureMode
  deriving DecidableEq, Repr

/-- A voucher's use-by day, whole or as a residue (R3). -/
inductive UseBy where
  | full (day : Nat)
  | residue (r : Nat)
  deriving DecidableEq, Repr

/-- A voucher record (R3). -/
structure Voucher where
  target : Nat
  serial : Nat
  kind : Nat
  amount : Nat
  useBy : UseBy
  tag : Nat
  hop : Nat
  deriving DecidableEq, Repr

/-- A receipt record (R6). The condition set is a list in the order of falling codes (Flags.lean). -/
structure Receipt where
  origin : Nat
  serial : Nat
  created : Nat
  outcome : ReceiptOutcome
  unchecked : Bool
  voucherSerial : Nat
  state : AccountState
  energy : Nat
  hours : Nat
  lifetime : Nat
  conditions : List Condition
  bypass : Nat
  corrected : Nat
  uncorrected : Nat
  discards : Nat
  hop : Nat
  deriving DecidableEq, Repr

/-- The account record (R20); `counter` is `none` while UNKNOWN. -/
structure Record where
  commissioned : Bool
  owned : Bool
  energy : Nat
  timeCredit : Nat
  lifeline : Nat
  lifelineDay : Nat
  base : Nat
  marks : Marks
  counter : Option Nat
  reserve : Nat
  lifetime : Nat
  bypass : Nat
  lastStatus : Nat
  held : Bool
  deriving DecidableEq, Repr

/-- An outcome whose receipt is owed, with the use-by unchecked mark it is to carry (R32, R34, R35). -/
structure Owed where
  outcome : ReceiptOutcome
  unchecked : Bool
  deriving DecidableEq, Repr

/-- An entry of the pending-own list (R36). `answerTo` is the model's own: the keypad evaluation that awaits the
outcome of the entry's first examination, if one does. -/
structure PendingEntry where
  voucher : Voucher
  reported : Bool
  inCommit : Bool
  unexamined : Bool
  owed : Option Owed
  answerTo : Option Nat
  deriving DecidableEq, Repr

/-- The application in flight (R31): its voucher, whether the use-by check was passed without examination, and the
keypad evaluation that awaits its answer. `verified` is the model's own: the Journal has verified its commit, and the
report is on its way (notes/assumptions/28.md). -/
structure Flight where
  voucher : Voucher
  unchecked : Bool
  answerTo : Option Nat
  verified : Bool
  deriving DecidableEq, Repr

/-- The Account Unit (R20): the live and staged records and the working state. `state` is the account state last
derived (R23); `pass` is the serials examined in the running pass, if one runs, and `passDue` whether a further one is due.
`overtaken` is the model's own: the reports in transit on staged commits whose application HELD has overtaken, or
commissioning has ended (notes/assumptions/28.md). -/
structure Account where
  live : Record
  staged : Option Record
  flight : Option Flight
  state : AccountState
  pendingOwn : List PendingEntry
  conditions : List Condition
  metered : Nat
  statusOwed : Bool
  pass : Option (List Nat)
  passDue : Bool
  overtaken : List Instr
  deriving DecidableEq, Repr

/-- The Meter's mode (R47). -/
inductive MeterMode where
  | sampling | idle
  deriving DecidableEq, Repr

/-- The supply band (R47). -/
inductive Band where
  | normal | low
  deriving DecidableEq, Repr

/-- The Meter (R47). `known` is the account state last made known to it (R52). -/
structure Meter where
  mode : MeterMode
  request : Bool
  chargeRem : Nat
  lifetimeRem : Nat
  lastGood : Nat
  misses : Nat
  band : Band
  lowRun : Nat
  recoveryRun : Nat
  known : AccountState
  deriving DecidableEq, Repr

/-- The switch states (R69). -/
inductive SwitchState where
  | opened | closed | tripHold
  deriving DecidableEq, Repr

/-- The Switch Controller (R69), with the over-cap run that it keeps and the account state last made known to it. -/
structure Switch where
  state : SwitchState
  timer : Option Nat
  overRun : Nat
  known : AccountState
  deriving DecidableEq, Repr

/-- The District Clock's candidate record (R82). -/
structure Candidate where
  peer : Nat
  day : Nat
  second : Nat
  deriving DecidableEq, Repr

/-- The District Clock, in the always-on domain (R82). -/
structure Clock where
  timeState : TimeState
  day : Nat
  second : Nat
  subSecond : Nat
  candidate : Option Candidate
  absence : Nat
  deriving DecidableEq, Repr

/-- An entry of the voucher table (R95); the hop is the record's. `isLocal` is the origin mark LOCAL. -/
structure VoucherEntry where
  voucher : Voucher
  arrival : Nat
  isLocal : Bool
  deriving DecidableEq, Repr

/-- An entry of the receipt table (R96); the hop is the record's. -/
structure ReceiptEntry where
  receipt : Receipt
  arrival : Nat
  own : Bool
  deriving DecidableEq, Repr

/-- The Relay Store (R95 to R99, R115); the collection log lies in the always-on domain. -/
structure Store where
  vouchers : List (Option VoucherEntry)
  receipts : List (Option ReceiptEntry)
  retired : List ItemKey
  arrivals : Nat
  cursor : Nat
  log : List Receipt
  deriving DecidableEq, Repr

/-- The hailer machine's states (R119). -/
inductive HailerState where
  | idle | hailing | askWindow | serving | awaitTook
  deriving DecidableEq, Repr

/-- The asker machine's states (R119). -/
inductive AskerState where
  | idle | askPending | awaitCarry
  deriving DecidableEq, Repr

/-- An entry of the ask queue (R119). -/
structure AskEntry where
  asker : Nat
  keys : List ItemKey
  deriving DecidableEq, Repr

/-- The service position (R119); the asker served is the head of the ask queue. -/
structure Service where
  asker : Nat
  keyCount : Nat
  plan : List (List ItemKey)
  burst : Nat
  retry : Nat
  acked : Nat
  deriving DecidableEq, Repr

/-- The outstanding ask (R119). The deadline is in ms from the end of the HAIL's reception; `composed` is the ASK frame,
made final when it is composed (R146). -/
structure Outstanding where
  hailer : Nat
  exchange : Nat
  keys : List ItemKey
  composed : AskFrame
  deadline : Nat
  lastBurst : Option Nat
  deriving DecidableEq, Repr

/-- The Exchange Engine (R119). A timer is `none` when stopped, else the ms it was last started with; `windowExtended`
says the ask window has passed its 1,500 ms and waits for the channel to go free (R124). -/
structure Exchange where
  hailer : HailerState
  number : Nat
  hailTimer : Option Nat
  deferred : Bool
  askWindow : Option Nat
  windowExtended : Bool
  askQueue : List AskEntry
  service : Option Service
  tookWait : Option Nat
  tally : Nat
  asker : AskerState
  outstanding : Option Outstanding
  askDelay : Option Nat
  carryTimer : Option Nat
  keptTook : Option TookFrame
  suspended : Bool
  deriving DecidableEq, Repr

/-- The receive states (R143). -/
inductive ReceiveState where
  | doze | listen | receiving | transmitting
  deriving DecidableEq, Repr

/-- The kinds of radio frame, in the arbiter's priority order TOOK, CARRY, ASK, HAIL (R155). -/
inductive FrameKind where
  | took | carry | ask | hail
  deriving DecidableEq, Repr

/-- A frame made final (R146). -/
inductive AirFrame where
  | hail (f : HailFrame)
  | ask (f : AskFrame)
  | carry (f : CarryFrame)
  | took (f : TookFrame)
  deriving DecidableEq, Repr

/-- A CARRY as it waits in its slot, before its items are read (R126). -/
structure WaitingCarry where
  asker : Nat
  exchange : Nat
  burst : Nat
  last : Bool
  keys : List ItemKey
  deriving DecidableEq, Repr

/-- What a transmit slot holds: a final frame, or a CARRY whose items are read at transmission (R126, R146). -/
inductive SlotFrame where
  | final (f : AirFrame)
  | waiting (w : WaitingCarry)
  deriving DecidableEq, Repr

/-- A transmit slot's frame with its attempt state (R155). -/
structure TxSlot where
  frame : SlotFrame
  senses : Nat
  window : Nat
  deadline : Option Nat
  deriving DecidableEq, Repr

/-- The Radio Line Interface (R143). `sampling` says a channel sample is being taken in DOZE (R148), `onAir` is the
frame being sent (R151). -/
structure Radio where
  active : Bool
  rx : ReceiveState
  hold : Option Nat
  reception : Option (List Byte)
  discards : Nat
  sampling : Bool
  onAir : Option AirFrame
  deriving DecidableEq, Repr

/-- The Channel Access Unit (R155): the four slots, and the kind of frame whose backoff runs with its length in 20 ms slots. -/
structure Channel where
  took : Option TxSlot
  carry : Option TxSlot
  ask : Option TxSlot
  hail : Option TxSlot
  backoff : Option (FrameKind × Nat)
  deriving DecidableEq, Repr

/-- An account image (R160). -/
structure Image where
  sequence : Nat
  kit : Nat
  commissioned : Bool
  owned : Bool
  energy : Nat
  timeCredit : Nat
  lifeline : Nat
  lifelineDay : Nat
  base : Nat
  marks : Marks
  reserve : Nat
  chargeRem : Nat
  lifetimeRem : Nat
  lifetime : Nat
  bypass : Nat
  lastStatus : Nat
  deriving DecidableEq, Repr

/-- A journal page (R160): erased, holding an image and the two CRC bytes as one number, or torn, its write cut off part
way, so that its CRC fails (notes/assumptions/11.md). -/
inductive Page where
  | erased
  | torn
  | holds (img : Image) (crc : Check16)
  deriving DecidableEq, Repr

/-- The commissioning block (R161): erased, torn, or holding parameters and the two CRC bytes as one number. -/
inductive Block where
  | erased
  | torn
  | holds (p : Params) (crc : Check16)
  deriving DecidableEq, Repr

/-- What the nonvolatile store is doing (R162). -/
inductive WriteState where
  | idle | writing | verifying | scanning | erasing
  deriving DecidableEq, Repr

/-- The attempt of a write (R162). -/
inductive Attempt where
  | first | retry
  deriving DecidableEq, Repr

/-- The commit in flight (R162). `overtaken` is the model's own: HELD has overtaken the application that a staged commit is
of (notes/assumptions/28.md). -/
structure Commit where
  kind : CommitKind
  attempt : Attempt
  target : Nat
  image : Image
  overtaken : Bool
  deriving DecidableEq, Repr

/-- The occasion of a scan (R169): a COLD START, a MAIN START with the absence counter as it was read, or a reload. -/
inductive Scan where
  | cold
  | main (absence : Nat)
  | reload
  deriving DecidableEq, Repr

/-- Where the commissioning procedure of R170 stands: writing the block, writing the first page, or ended. -/
inductive CommissionStage where
  | block (a : Attempt)
  | firstPage
  | ended (done : Bool)
  deriving DecidableEq, Repr

/-- The Journal: the nonvolatile pages and block, and its working state (R160 to R162). `scan` is the scan made while
SCANNING, `erasureWaits` says ERASING waits for WRITE-SAFE (R171), `commissioning` is the procedure of R170. -/
structure Journal where
  pages : List Page
  block : Block
  writeState : WriteState
  slot : Option Commit
  periodicPending : Bool
  stagedWaiting : Bool
  awaitingSafe : Bool
  newestPage : Nat
  newestSeq : Nat
  reloadOwed : Bool
  scan : Option Scan
  erasureWaits : Bool
  commissioning : Option (Params × CommissionStage)
  deriving DecidableEq, Repr

/-- The two checked regions (R172). -/
inductive Region where
  | store | account
  deriving DecidableEq, Repr

/-- The kind of an error found on reading (R173). -/
inductive ErrorKind where
  | single | double
  deriving DecidableEq, Repr

/-- A capture (R173). -/
structure Capture where
  address : Nat
  kind : ErrorKind
  deriving DecidableEq, Repr

/-- The state held for each region (R173). -/
structure RegionCheck where
  corrected : Nat
  uncorrected : Nat
  capture : Option Capture
  deriving DecidableEq, Repr

/-- The armed fault (R173, R179). -/
structure ArmedFault where
  region : Region
  count : Nat
  bit : Nat
  deriving DecidableEq, Repr

/-- The unit a word belongs to (R172, R175). The ACCOUNT region is the live record and, while one exists, the staged one. -/
inductive EntryUnit where
  | voucherSlot (n : Nat)
  | receiptSlot (n : Nat)
  | retiredKey (k : ItemKey)
  | pendingOwn (serial : Nat)
  | askEntry (asker : Nat)
  | logEntry (k : ItemKey)
  | account
  | staged
  deriving DecidableEq, Repr

/-- A word that reads back wrong: the unit it belongs to, the bits flipped, and its address (R172, R179). -/
structure BadWord where
  unit : EntryUnit
  flips : List Nat
  address : Nat
  deriving DecidableEq, Repr

/-- The Memory Check Unit (R173), with the words whose check bits disagree with their data. -/
structure Check where
  store : RegionCheck
  account : RegionCheck
  armed : Option ArmedFault
  bad : List BadWord
  deriving DecidableEq, Repr

/-- The keypad's entry states (R180). -/
inductive EntryState where
  | idle | entry | foreignTarget | foreignCode | evaluating | showing
  deriving DecidableEq, Repr

/-- The LED colours. -/
inductive Colour where
  | red | green | amber
  deriving DecidableEq, Repr

/-- A blink group (R184). -/
structure BlinkGroup where
  colour : Colour
  blinks : Nat
  deriving DecidableEq, Repr

/-- Where the showing of the display queue's first group stands (R184): the dark lead, a blink lit or dark with the
blinks left of the group, or the dark gap between groups. -/
inductive DisplayPhase where
  | lead
  | lit (left : Nat)
  | dark (left : Nat)
  | gap
  deriving DecidableEq, Repr

/-- The Keypad and Indicator Unit (R180). `known` is the account state last made known to it (R186), `flash` whether
the 200 ms flash is being shown (R187), and `evaluation` numbers the typed own vouchers handed over (the model's own). -/
structure Keypad where
  entry : EntryState
  buffer : List (Fin 10)
  interKey : Bool
  answerWait : Bool
  display : List BlinkGroup
  phase : Option DisplayPhase
  flashTimer : Bool
  flash : Bool
  known : AccountState
  evaluation : Nat
  deriving DecidableEq, Repr

/-- The service line's receive states (R189). -/
inductive LineState where
  | hunt | frame
  deriving DecidableEq, Repr

/-- The response statuses (R190). -/
inductive Status where
  | ok | badForm | badParam | wrongState | notAgent | busy | refused
  deriving DecidableEq, Repr

/-- A response formed and not yet sent: the echoed command code, its status and body, and whether its last byte ends
the command in progress (R190). -/
structure Response where
  code : Nat
  status : Status
  body : List Byte
  final : Bool
  deriving DecidableEq, Repr

/-- The Service Line (R189, R190): the bytes collected of the frame in reception, the code of the command in progress and
the responses in the order they were formed. -/
structure ServiceLine where
  line : LineState
  frame : List Byte
  inProgress : Option Nat
  responses : List Response
  deriving DecidableEq, Repr

/-- The two power domains and the input pins (0.5, 0.6). -/
structure Power where
  mainOn : Bool
  alwaysOn : Bool
  writeSafe : Bool
  channelBusy : Bool
  deriving DecidableEq, Repr

/-- The whole Controller. `params` is the commissioning block's values as the part holds them while the main domain is
powered (R161), `decommissioning` says DECOMMISSION is in progress (R198). Two fields are the model's own: `inTransit`
holds the reports one block has handed to another and that have not been taken there yet (R60; notes/assumptions/1.md),
and `draws` counts the free values drawn (notes/assumptions/3.md). -/
structure Controller where
  power : Power
  params : Option Params
  decommissioning : Bool
  account : Account
  meter : Meter
  switch : Switch
  clock : Clock
  store : Store
  exchange : Exchange
  radio : Radio
  channel : Channel
  journal : Journal
  check : Check
  keypad : Keypad
  service : ServiceLine
  inTransit : List Instr
  draws : Nat
  deriving DecidableEq, Repr

/-- The machine's state: the Controller and the commands that wait, first in, first out. -/
structure State where
  ctl : Controller
  pending : List Instr
  deriving DecidableEq, Repr

/-- Why a command could stop the machine with a fault. No rule of the spec stops the part, and no command's meaning
answers with a fault. -/
inductive Fault where
  /-- Raised by no command: the type's one value. Safe. -/
  | neverRaised
  deriving DecidableEq, Repr

/-- Why a command could be refused. -/
inductive Refusal where
  /-- Raised by an arm of `exec` that has no meaning yet; no arm is left so. Safe. -/
  | notModelled (mnemonic : String)
  deriving DecidableEq, Repr

/-- The record of outcome 1 of R21: the commissioned flag clear and every other field 0 or clear. -/
def Record.blank : Record :=
  { commissioned := false, owned := false, energy := 0, timeCredit := 0, lifeline := 0, lifelineDay := 0, base := 0,
    marks := 0, counter := some 0, reserve := 0, lifetime := 0, bypass := 0, lastStatus := 0, held := false }

/-- The Account Unit of an UNCOMMISSIONED station (R21, R22). -/
def Account.blank : Account :=
  { live := Record.blank, staged := none, flight := none, state := .uncommissioned, pendingOwn := [], conditions := [],
    metered := 0, statusOwed := false, pass := none, passDue := false, overtaken := [] }

/-- The Meter after a start (R48), in the mode given. The spec does not say which account state the Meter acts on between
a start of a commissioned station and its first derivation: the model's choice is UNCOMMISSIONED (notes/assumptions/32.md). -/
def Meter.started (mode : MeterMode) : Meter :=
  { mode := mode, request := false, chargeRem := 0, lifetimeRem := 0, lastGood := 0, misses := 0, band := .normal,
    lowRun := 0, recoveryRun := 0, known := .uncommissioned }

/-- The switch after a start, before the first derivation (R69). -/
def Switch.started : Switch := { state := .opened, timer := none, overRun := 0, known := .uncommissioned }

/-- The clock after COLD START (R82). -/
def Clock.cold : Clock :=
  { timeState := .unset, day := 0, second := 0, subSecond := 0, candidate := none, absence := 0 }

/-- The store with its collections emptied (R100), keeping the given collection log. -/
def Store.emptied (log : List Receipt) : Store :=
  { vouchers := List.replicate 48 none, receipts := List.replicate 48 none, retired := [], arrivals := 0, cursor := 0, log := log }

/-- The Exchange Engine with both machines IDLE (R119), with the hail timer, exchange number and tally given. -/
def Exchange.started (timer : Option Nat) (number tally : Nat) : Exchange :=
  { hailer := .idle, number := number, hailTimer := timer, deferred := false, askWindow := none, windowExtended := false,
    askQueue := [], service := none, tookWait := none, tally := tally, asker := .idle, outstanding := none, askDelay := none,
    carryTimer := none, keptTook := none, suspended := false }

/-- The Radio Line Interface after a start (R143). -/
def Radio.started (active : Bool) (discards : Nat) : Radio :=
  { active := active, rx := .doze, hold := none, reception := none, discards := discards, sampling := false, onAir := none }

/-- The Channel Access Unit with its slots empty and its timer stopped (R155). -/
def Channel.empty : Channel := { took := none, carry := none, ask := none, hail := none, backoff := none }

/-- A region's counts and capture cleared (R173). -/
def RegionCheck.clear : RegionCheck := { corrected := 0, uncorrected := 0, capture := none }

/-- The Journal after a start (R162), keeping its nonvolatile pages and block. -/
def Journal.started (pages : List Page) (block : Block) : Journal :=
  { pages := pages, block := block, writeState := .idle, slot := none, periodicPending := false, stagedWaiting := false,
    awaitingSafe := false, newestPage := 15, newestSeq := 0, reloadOwed := false, scan := none, erasureWaits := false,
    commissioning := none }

/-- The Keypad and Indicator Unit after a start (R180). The spec does not say which account state the keypad and the
indicator act on between a start of a commissioned station and its first derivation: the model's choice is UNCOMMISSIONED,
so that the indicator blinks amber fast and each sequence is answered with refusal code 6 (notes/assumptions/32.md). So is that
a flash in progress ends, of which the rule says nothing (notes/assumptions/51.md). -/
def Keypad.started (evaluation : Nat) : Keypad :=
  { entry := .idle, buffer := [], interKey := false, answerWait := false, display := [], phase := none, flashTimer := true,
    flash := false, known := .uncommissioned, evaluation := evaluation }

/-- The Service Line after a start (R189). -/
def ServiceLine.started : ServiceLine := { line := .hunt, frame := [], inProgress := none, responses := [] }

/-- The Controller right after COLD START with its nonvolatile store erased: UNCOMMISSIONED (R21, R161). The level of
the WRITE-SAFE and channel-busy inputs and the erased store are the model's choice (notes/assumptions/5.md). -/
def Controller.reset : Controller :=
  { power := { mainOn := true, alwaysOn := true, writeSafe := false, channelBusy := false }
    params := none
    decommissioning := false
    account := Account.blank
    meter := Meter.started .idle
    switch := Switch.started
    clock := Clock.cold
    store := Store.emptied []
    exchange := Exchange.started none 0 0
    radio := Radio.started false 0
    channel := Channel.empty
    journal := Journal.started (List.replicate 16 .erased) .erased
    check := { store := RegionCheck.clear, account := RegionCheck.clear, armed := none, bad := [] }
    keypad := Keypad.started 0
    service := ServiceLine.started
    inTransit := []
    draws := 0 }

/-- The machine right after reset, with no command waiting. -/
def State.reset : State := { ctl := Controller.reset, pending := [] }

end Sys2Proof.Machine
end

