-- ==== Sys2Proof/Machine/Bytes.lean ====
section
/-! DEFINITION. Byte fields, the CRC-16 check function (R9, R10) and the keyed voucher tag (R11, R12). -/

namespace Sys2Proof.Machine

/-- A number as `n` bytes, most significant first (0.12). -/
def bytesOf : Nat → Nat → List Byte
  | 0, _ => []
  | n + 1, v => BitVec.ofNat 8 (v / 256 ^ n) :: bytesOf n v

/-- The number that bytes spell, most significant first (0.12). -/
def numberOf (bs : List Byte) : Nat := bs.foldl (fun n b => n * 256 + b.toNat) 0

/-- The number in the `len` bytes that begin at position `at0`, counted from 0. -/
def fieldAt (bs : List Byte) (at0 len : Nat) : Nat := numberOf ((bs.drop at0).take len)

/-- One of the eight shifts of R9, step 3. -/
def crcShift (r : Check16) : Check16 := if r.getLsbD 15 then (r <<< 1) ^^^ 0x1021#16 else r <<< 1

/-- `crcShift` made `n` times. -/
def crcShifts : Nat → Check16 → Check16
  | 0, r => r
  | n + 1, r => crcShifts n (crcShift r)

/-- One byte taken into the CRC-16 register (R9, steps 2 and 3). -/
def crcByte (r : Check16) (b : Byte) : Check16 := crcShifts 8 (r ^^^ (b.zeroExtend 16 <<< 8))

/-- The CRC-16 of a sequence of bytes (R9). -/
def crc16 (bs : List Byte) : Check16 := bs.foldl crcByte 0xFFFF#16

/-- Bytes followed by their CRC-16, most significant byte first (R10). -/
def withCrc (bs : List Byte) : List Byte := bs ++ bytesOf 2 (crc16 bs).toNat

/-- Whether the last two bytes are the CRC-16 of the bytes before them (R10). -/
def crcPasses (bs : List Byte) : Bool :=
  decide (fieldAt bs (bs.length - 2) 2 = (crc16 (bs.take (bs.length - 2))).toNat)

/-- The tag message of R11 from its five fields. -/
def tagMessage (target serial kind amount residue : Nat) : List Byte :=
  bytesOf 4 target ++ bytesOf 2 serial ++ bytesOf 1 kind ++ bytesOf 3 amount ++ bytesOf 2 residue

/-- The tag of a message under a 16-byte kit key (R11). -/
def tagUnder (key msg : List Byte) : Nat :=
  ((crc16 (key.take 8 ++ msg)).toNat * 65536 + (crc16 (key.drop 8 ++ msg)).toNat) % 100000000

/-- The use-by residue that enters the tag message (R11). -/
def useByResidue : UseBy → Nat
  | .full day => day % 1000
  | .residue r => r

/-- The tag a voucher must carry under a kit key (R11). -/
def voucherTag (key : List Byte) (v : Voucher) : Nat :=
  tagUnder key (tagMessage v.target v.serial v.kind v.amount (useByResidue v.useBy))

/-- Whether a voucher's tag matches under a kit key (R12). -/
def tagMatches (key : List Byte) (v : Voucher) : Bool := decide (voucherTag key v = v.tag)

/-- The station's decommissioning code: the tag function over serial 0, kind 9, amount 0 and residue 0 (R12). -/
def decommissionCode (p : Params) : Nat := tagUnder p.key (tagMessage p.kit 0 9 0 0)

end Sys2Proof.Machine
end

