-- ==== Sys2Proof/Machine/Flags.lean ====
section
/-! DEFINITION. The condition set (R42, R43), the serial window (R27), the derivation of the account state (R23) and the
codes that receipts and responses give to names. -/

namespace Sys2Proof.Machine

/-- The conditions in the order of falling codes. -/
def allConditions : List Condition :=
  [.held, .storeFault, .bypass, .journalFault, .senseLost, .timeUnset, .overrange, .tripped, .voucherRefused,
   .relaySuspended, .senseHold, .corrected, .storeFull]

/-- A condition's code (R42). -/
def conditionCode : Condition → Nat
  | .storeFull => 1
  | .corrected => 2
  | .senseHold => 3
  | .relaySuspended => 4
  | .voucherRefused => 5
  | .tripped => 6
  | .overrange => 7
  | .timeUnset => 8
  | .senseLost => 9
  | .journalFault => 10
  | .bypass => 11
  | .storeFault => 12
  | .held => 13

/-- A condition with code 10 or higher is urgent (R42). -/
def isUrgent (c : Condition) : Bool := decide (10 ≤ conditionCode c)

/-- The event conditions, which only the reporting step of a STATUS receipt clears (R42, R43). -/
def isEvent : Condition → Bool
  | .storeFault => true
  | .bypass => true
  | .overrange => true
  | .tripped => true
  | .voucherRefused => true
  | .corrected => true
  | .storeFull => true
  | .held => false
  | .journalFault => false
  | .senseLost => false
  | .timeUnset => false
  | .relaySuspended => false
  | .senseHold => false

/-- The set with a condition raised, in the order of falling codes (R42). -/
def setWith (c : Condition) (set : List Condition) : List Condition :=
  allConditions.filter (fun d => decide (d = c) || set.contains d)

/-- The set with a condition cleared (R43). -/
def setWithout (c : Condition) (set : List Condition) : List Condition := set.filter (fun d => !decide (d = c))

/-- The set after the reporting step: every event condition cleared (R45). -/
def stateConditions (set : List Condition) : List Condition := set.filter (fun d => !isEvent d)

/-- The highest code pending, 0 when the set is empty (R185). -/
def highestCode (set : List Condition) : Nat := set.foldl (fun m c => max m (conditionCode c)) 0

/-- The 16-bit condition field: bit `n - 1` for the condition with code `n` (R17). -/
def conditionField (set : List Condition) : Nat := set.foldl (fun m c => m ||| 2 ^ (conditionCode c - 1)) 0

/-- The condition set a 16-bit field spells (R17). -/
def conditionsOf (field : Nat) : List Condition := allConditions.filter (fun c => field.testBit (conditionCode c - 1))

/-- The classes of a voucher serial (R27). -/
inductive SerialClass where
  | duplicate | ahead | eligible
  deriving DecidableEq, Repr

/-- Whether a serial of the window is marked (R20). -/
def isMarked (base : Nat) (marks : Marks) (serial : Nat) : Bool := decide (base < serial) && marks.getLsbD (serial - base - 1)

/-- A serial's class by the window (R27). -/
def classify (base : Nat) (marks : Marks) (serial : Nat) : SerialClass :=
  if serial ≤ base then .duplicate
  else if isMarked base marks serial then .duplicate
  else if base + 32 < serial then .ahead
  else .eligible

/-- The window moved up while the mark for base + 1 is set, at most `n` places (R27). -/
def advanceWindow : Nat → Nat × Marks → Nat × Marks
  | 0, w => w
  | n + 1, (base, marks) => if marks.getLsbD 0 then advanceWindow n (base + 1, marks >>> 1) else (base, marks)

/-- The window after an ELIGIBLE serial is marked and the base advanced (R27). -/
def markSerial (base : Nat) (marks : Marks) (serial : Nat) : Nat × Marks :=
  advanceWindow 32 (base, marks ||| (1#32 <<< (serial - base - 1)))

/-- The account state of a record, with the commissioned low threshold (R23). -/
def deriveState (low : Nat) (r : Record) : AccountState :=
  if !r.commissioned then .uncommissioned
  else if r.held then .held
  else if r.owned then .owned
  else if 0 < r.timeCredit then .timed
  else if low < r.energy then .credited
  else if 0 < r.energy then .low
  else if 0 < r.lifeline then .lifeline
  else .locked

/-- The account states in which the switch may be closed (4.2.1). -/
def allowedState : AccountState → Bool
  | .owned => true
  | .timed => true
  | .credited => true
  | .low => true
  | .lifeline => true
  | .locked => false
  | .held => false
  | .uncommissioned => false

/-- An account state's code (R17). -/
def stateCode : AccountState → Nat
  | .uncommissioned => 0
  | .locked => 1
  | .lifeline => 2
  | .low => 3
  | .credited => 4
  | .timed => 5
  | .owned => 6
  | .held => 7

/-- The account state a code names (R17, R19). -/
def stateOfCode : Nat → Option AccountState
  | 0 => some .uncommissioned
  | 1 => some .locked
  | 2 => some .lifeline
  | 3 => some .low
  | 4 => some .credited
  | 5 => some .timed
  | 6 => some .owned
  | 7 => some .held
  | _ => none

/-- A receipt outcome's code (R7). -/
def outcomeCode : ReceiptOutcome → Nat
  | .applied => 1
  | .badTag => 2
  | .badForm => 3
  | .expired => 4
  | .full => 5
  | .ahead => 6
  | .status => 7

/-- The receipt outcome a code names (R7, R19). -/
def outcomeOfCode : Nat → Option ReceiptOutcome
  | 1 => some .applied
  | 2 => some .badTag
  | 3 => some .badForm
  | 4 => some .expired
  | 5 => some .full
  | 6 => some .ahead
  | 7 => some .status
  | _ => none

/-- Whether an outcome settles its voucher for good (R7). -/
def isFinal : ReceiptOutcome → Bool
  | .applied => true
  | .badTag => true
  | .badForm => true
  | .expired => true
  | .full => false
  | .ahead => false
  | .status => false

/-- The outcome answer of a final refusal (R28). -/
def answerOf : ReceiptOutcome → Answer
  | .applied => .applied
  | .badTag => .badTag
  | .badForm => .badForm
  | .expired => .expired
  | .full => .pending
  | .ahead => .pending
  | .status => .pending

/-- A time state's code in IDENTIFY and STATUS (R191, R193). -/
def timeCode : TimeState → Nat
  | .unset => 0
  | .provisional => 1
  | .set => 2

/-- A response status's code (R190). -/
def statusCode : Status → Nat
  | .ok => 0
  | .badForm => 1
  | .badParam => 2
  | .wrongState => 3
  | .notAgent => 4
  | .busy => 5
  | .refused => 6

end Sys2Proof.Machine
end

