-- ==== Sys2Proof/Machine/Operands.lean ====
section
/-! DEFINITION. The forms that records take outside the part and how they are read: keys and items of the air (R2, R17
to R19), typed codes (R13 to R16), radio frames (R145, R146, R152), and the COMMISSION parameters (R192). -/

namespace Sys2Proof.Machine

/-! ### Keys (R1, R2) -/

/-- A kit number in range (0.11). -/
def kitInRange (k : Nat) : Bool := decide (1 ≤ k) && decide (k ≤ Config.kitMax)

/-- A voucher serial in range (R1). -/
def serialInRange (s : Nat) : Bool := decide (1 ≤ s) && decide (s ≤ Config.serialMax)

/-- The item key that an air key spells, if it is valid (R2). -/
def keyOf (k : AirKey) : Option ItemKey :=
  if !kitInRange k.kit then none
  else if k.type = 1 then (if serialInRange k.serial then some ⟨.voucher, k.kit, k.serial⟩ else none)
  else if k.type = 2 then (if 1 ≤ k.serial ∧ k.serial ≤ 65535 then some ⟨.receipt, k.kit, k.serial⟩ else none)
  else none

/-- The type byte of a key (R2). -/
def typeByte : KeyType → Nat
  | .voucher => 1
  | .receipt => 2

/-- An item key as it is sent (R2). -/
def airKeyOf (k : ItemKey) : AirKey := ⟨typeByte k.type, k.kit, k.serial⟩

/-- The valid keys of a list, in its order; malformed keys are passed over (R2). -/
def validKeys (ks : List AirKey) : List ItemKey := ks.filterMap keyOf

/-- An offered key that is valid with its hop byte (R2). -/
def offeredOf (o : OfferedKey) : Option (ItemKey × Nat) := if o.hop ≤ 15 then (keyOf o.key).map (·, o.hop) else none

/-- A voucher's key (R1). -/
def voucherKey (v : Voucher) : ItemKey := ⟨.voucher, v.target, v.serial⟩

/-- A receipt's key (R1). -/
def receiptKey (r : Receipt) : ItemKey := ⟨.receipt, r.origin, r.serial⟩

/-- The key of the voucher a receipt concerns (R7). -/
def concernedKey (r : Receipt) : ItemKey := ⟨.voucher, r.origin, r.voucherSerial⟩

/-! ### Records and items (R4, R5, R17 to R19) -/

/-- Whether a voucher is well formed: its kind is 1 to 4 and its amount lies in the kind's range (R4). -/
def voucherWellFormed (v : Voucher) : Bool :=
  match v.kind with
  | 1 => decide (1 ≤ v.amount) && decide (v.amount ≤ 99999)
  | 2 => decide (1 ≤ v.amount) && decide (v.amount ≤ 9600)
  | 3 => decide (v.amount = 0)
  | 4 => decide (v.amount = 0)
  | _ => false

/-- The hop a copy taken from a CARRY holds: the carried hop plus 1, or 15 where that sum is 16 (R5). -/
def takenHop (hop : Nat) : Nat := min 15 (hop + 1)

/-- The voucher record that a valid voucher item spells, with its carried hop (R18). -/
def voucherOfItem (i : VoucherItem) : Option Voucher :=
  if kitInRange i.target && serialInRange i.serial && decide (i.hop ≤ 15) then
    some ⟨i.target, i.serial, i.kind, i.amount, .full i.useBy, i.tag, i.hop⟩
  else none

/-- The full use-by day a record in the store or on the air carries (R15). -/
def fullUseBy : UseBy → Nat
  | .full day => day
  | .residue r => r

/-- A voucher record written as an item (R18). -/
def itemOfVoucher (v : Voucher) : VoucherItem := ⟨v.target, v.serial, v.kind, v.amount, fullUseBy v.useBy, v.tag, v.hop⟩

/-- The receipt record that a valid receipt item spells, with its carried hop (R19). -/
def receiptOfItem (i : ReceiptItem) : Option Receipt :=
  match outcomeOfCode (i.outcomeByte % 128), stateOfCode i.stateCode with
  | some o, some st =>
    if kitInRange i.origin && decide (1 ≤ i.serial) && decide (i.serial ≤ 65535)
        && (if o = .status then decide (i.voucherSerial = 0) else serialInRange i.voucherSerial)
        && decide (i.conditions < 2 ^ 13) && decide (i.hop ≤ 15) then
      some { origin := i.origin, serial := i.serial, created := i.created, outcome := o,
             unchecked := decide (128 ≤ i.outcomeByte), voucherSerial := i.voucherSerial, state := st, energy := i.energy,
             hours := i.hours, lifetime := i.lifetime, conditions := conditionsOf i.conditions, bypass := i.bypass,
             corrected := i.corrected, uncorrected := i.uncorrected, discards := i.discards, hop := i.hop }
    else none
  | _, _ => none

/-- A receipt record written as an item (R19). -/
def itemOfReceipt (r : Receipt) : ReceiptItem :=
  { origin := r.origin, serial := r.serial, created := r.created
    outcomeByte := outcomeCode r.outcome + (if r.unchecked then 128 else 0)
    voucherSerial := r.voucherSerial, stateCode := stateCode r.state, energy := r.energy, hours := r.hours
    lifetime := r.lifetime, conditions := conditionField r.conditions, bypass := r.bypass, corrected := r.corrected
    uncorrected := r.uncorrected, discards := r.discards, hop := r.hop }

/-- The 16 bytes of a voucher item before its hop byte (R17, R195). -/
def voucherBytes (i : VoucherItem) : List Byte :=
  bytesOf 4 i.target ++ bytesOf 2 i.serial ++ bytesOf 1 i.kind ++ bytesOf 3 i.amount ++ bytesOf 2 i.useBy ++ bytesOf 4 i.tag

/-- The 17 bytes of a voucher item (R17). -/
def voucherItemBytes (i : VoucherItem) : List Byte := voucherBytes i ++ bytesOf 1 i.hop

/-- The voucher item that 16 or 17 bytes spell; the hop byte is 0 where there is none (R17, R195). -/
def readVoucherItem (bs : List Byte) : VoucherItem :=
  ⟨fieldAt bs 0 4, fieldAt bs 4 2, fieldAt bs 6 1, fieldAt bs 7 3, fieldAt bs 10 2, fieldAt bs 12 4, fieldAt bs 16 1⟩

/-- The 30 bytes of a receipt item (R17). -/
def receiptItemBytes (i : ReceiptItem) : List Byte :=
  bytesOf 4 i.origin ++ bytesOf 2 i.serial ++ bytesOf 2 i.created ++ bytesOf 1 i.outcomeByte ++ bytesOf 2 i.voucherSerial
    ++ bytesOf 1 i.stateCode ++ bytesOf 3 i.energy ++ bytesOf 2 i.hours ++ bytesOf 4 i.lifetime ++ bytesOf 2 i.conditions
    ++ bytesOf 2 i.bypass ++ bytesOf 1 i.corrected ++ bytesOf 1 i.uncorrected ++ bytesOf 2 i.discards ++ bytesOf 1 i.hop

/-- The receipt item that 30 bytes spell (R17). -/
def readReceiptItem (bs : List Byte) : ReceiptItem :=
  ⟨fieldAt bs 0 4, fieldAt bs 4 2, fieldAt bs 6 2, fieldAt bs 8 1, fieldAt bs 9 2, fieldAt bs 11 1, fieldAt bs 12 3,
   fieldAt bs 15 2, fieldAt bs 17 4, fieldAt bs 21 2, fieldAt bs 23 2, fieldAt bs 25 1, fieldAt bs 26 1, fieldAt bs 27 2,
   fieldAt bs 29 1⟩

/-! ### Typed codes (R13 to R16) -/

/-- The number that decimal digits spell. -/
def digitsNumber (ds : List (Fin 10)) : Nat := ds.foldl (fun n d => n * 10 + d.val) 0

/-- The number in `len` digits from position `at0`, counted from 0. -/
def digitsAt (ds : List (Fin 10)) (at0 len : Nat) : Nat := digitsNumber ((ds.drop at0).take len)

/-- The first candidate D0 of R14, step 1: the day congruent to the residue among T − 500 to T + 499, as an integer. -/
def firstCandidate (r T : Nat) : Int := (T : Int) - 500 + (((r : Int) - ((T : Int) - 500)) % 1000)

/-- The full use-by day reconstructed from a residue against a day (R14). -/
def reconstruct (r T : Nat) : Nat :=
  if firstCandidate r T < 0 then (firstCandidate r T + 1000).toNat
  else if 65535 < firstCandidate r T then (firstCandidate r T - 1000).toNat
  else (firstCandidate r T).toNat

/-- A use-by day as the application checks see it: a residue is reconstructed while the time is known (R15). -/
def useByNow (timeState : TimeState) (day : Nat) : UseBy → UseBy
  | .full d => .full d
  | .residue r => if timeState = .unset then .residue r else .full (reconstruct r day)

/-- What a typed code decodes to: a refusal code, an own voucher record or a foreign one. -/
inductive TypedCode where
  | refused (code : Nat)
  | own (v : Voucher)
  | foreign (v : Voucher)
  deriving DecidableEq, Repr

/-- The voucher record that 21 digits spell for a target (R13). -/
def codeVoucher (target : Nat) (timeState : TimeState) (day : Nat) (ds : List (Fin 10)) : Voucher :=
  { target := target, serial := digitsAt ds 0 4, kind := digitsAt ds 4 1, amount := digitsAt ds 5 5
    useBy := useByNow timeState day (.residue (digitsAt ds 10 3)), tag := digitsAt ds 13 8, hop := 0 }

/-- An own code of 21 digits (R13). -/
def decodeOwnCode (kit : Nat) (timeState : TimeState) (day : Nat) (ds : List (Fin 10)) : TypedCode :=
  if digitsAt ds 0 4 = 0 then .refused 1 else .own (codeVoucher kit timeState day ds)

/-- A foreign code of 29 digits, 8 of target and 21 of code (R16). -/
def decodeForeignCode (kit : Nat) (timeState : TimeState) (day : Nat) (ds : List (Fin 10)) : TypedCode :=
  if digitsAt ds 0 8 = 0 then .refused 1
  else if digitsAt ds 0 8 = kit then decodeOwnCode kit timeState day (ds.drop 8)
  else if digitsAt ds 8 4 = 0 then .refused 1
  else if timeState = .unset then .refused 7
  else .foreign (codeVoucher (digitsAt ds 0 8) timeState day (ds.drop 8))

/-! ### Radio frames (R145, R146, R152) -/

/-- A frame kind's code (R145). -/
def kindCode : FrameKind → Nat
  | .hail => 1
  | .ask => 2
  | .carry => 3
  | .took => 4

/-- A frame kind's length class (R145). -/
def kindClass : FrameKind → Nat
  | .hail => 3
  | .ask => 2
  | .carry => 3
  | .took => 1

/-- The payload bytes of a length class (R145). -/
def classBytes (cls : Nat) : Nat := 16 * 2 ^ cls

/-- The header of a frame in its 14 bytes (R145). -/
def headerBytes (k : FrameKind) (h : FrameHeader) : List Byte :=
  bytesOf 1 (kindCode k) ++ bytesOf 1 (kindClass k) ++ bytesOf 4 h.sender ++ bytesOf 4 h.addressee ++ bytesOf 2 h.day
    ++ bytesOf 1 ((if h.agent then 1 else 0) + (if h.timeSet then 2 else 0) + (if h.relaySuspended then 4 else 0))
    ++ bytesOf 1 h.exchange

/-- A key in its 7 bytes (R2). -/
def keyBytes (k : AirKey) : List Byte := bytesOf 1 k.type ++ bytesOf 4 k.kit ++ bytesOf 2 k.serial

/-- A frame's kind and header. -/
def frameHeader : AirFrame → FrameKind × FrameHeader
  | .hail f => (.hail, f.header)
  | .ask f => (.ask, f.header)
  | .carry f => (.carry, f.header)
  | .took f => (.took, f.header)

/-- A frame's payload before its padding (R145). -/
def payloadBytes : AirFrame → List Byte
  | .hail f => bytesOf 2 f.day ++ bytesOf 3 f.second ++ bytesOf 1 f.freeVouchers ++ bytesOf 1 f.freeReceipts
      ++ bytesOf 1 f.offers.length ++ f.offers.flatMap (fun o => keyBytes o.key ++ bytesOf 1 o.hop)
  | .ask f => bytesOf 1 f.keys.length ++ f.keys.flatMap keyBytes
  | .carry f => bytesOf 1 f.burst ++ bytesOf 1 (if f.last then 1 else 0)
      ++ bytesOf 1 (f.vouchers.length + f.receipts.length) ++ bytesOf 1 f.vouchers.length
      ++ f.vouchers.flatMap voucherItemBytes ++ f.receipts.flatMap receiptItemBytes
  | .took f => bytesOf 1 f.burst ++ bytesOf 1 f.keys.length ++ f.keys.flatMap keyBytes

/-- The start mark (R145). -/
def startMark : List Byte := [0x2D#8, 0xD4#8]

/-- The byte that a preamble repeats (R145). -/
def preambleByte : Byte := 0x55#8

/-- A frame's preamble in ms, chosen by its kind: long, `W` + 20 ms, or short, 4 ms (R145, R146). -/
def preambleMs (wake : Nat) : FrameKind → Nat
  | .hail => wake + 20
  | .ask => wake + 20
  | .carry => 4
  | .took => 4

/-- The bytes of a final frame after its start mark: header, payload padded with 00h, CRC-16 (R145, R146). -/
def frameBytes (f : AirFrame) : List Byte :=
  withCrc (headerBytes (frameHeader f).1 (frameHeader f).2 ++ payloadBytes f
    ++ List.replicate (classBytes (kindClass (frameHeader f).1) - (payloadBytes f).length) 0)

/-- What TX data carries of a frame: the preamble, `preambleByte` repeated for its length in ms, then the start mark, the
header, the payload and the CRC (R151). -/
structure Transmission where
  preambleMs : Nat
  bytes : List Byte
  deriving DecidableEq, Repr

/-- A final frame as a station with the given wake interval transmits it (R146, R151). -/
def transmissionOf (wake : Nat) (f : AirFrame) : Transmission :=
  ⟨preambleMs wake (frameHeader f).1, startMark ++ frameBytes f⟩

/-- A transmission's air time in microseconds: its preamble and eight bits a byte at 19.2 kbit/s (R144, R151). -/
def airTimeUs (t : Transmission) : Nat := t.preambleMs * 1000 + t.bytes.length * 8 * 1000000 / 19200

/-- The bytes of a frame after its start mark, by its length class (R145, R150). -/
def frameLength (cls : Nat) : Nat := 16 + classBytes cls

/-- The key in 7 bytes. -/
def readKey (bs : List Byte) : AirKey := ⟨fieldAt bs 0 1, fieldAt bs 1 4, fieldAt bs 5 2⟩

/-- The header fields in a frame's first 14 bytes. -/
def readHeader (bs : List Byte) : FrameHeader :=
  { sender := fieldAt bs 2 4, addressee := fieldAt bs 6 4, day := fieldAt bs 10 2
    agent := (fieldAt bs 12 1).testBit 0, timeSet := (fieldAt bs 12 1).testBit 1
    relaySuspended := (fieldAt bs 12 1).testBit 2, exchange := fieldAt bs 13 1 }

/-- `n` pieces of `len` bytes. -/
def pieces (bs : List Byte) (len : Nat) : Nat → List (List Byte)
  | 0 => []
  | n + 1 => bs.take len :: pieces (bs.drop len) len n

/-- A frame of a kind read from its header and its payload `pl`; none where a field is outside the limits of R152, check 5. -/
def readFrame (k : FrameKind) (h : FrameHeader) (pl : List Byte) : Option AirFrame :=
  match k with
  | .hail =>
    if fieldAt pl 7 1 ≤ 10 ∧ fieldAt pl 5 1 ≤ 48 ∧ fieldAt pl 6 1 ≤ 48 ∧ fieldAt pl 0 2 = h.day then
      some (.hail { header := h, day := fieldAt pl 0 2, second := fieldAt pl 2 3, freeVouchers := fieldAt pl 5 1,
                    freeReceipts := fieldAt pl 6 1,
                    offers := (pieces (pl.drop 8) 8 (fieldAt pl 7 1)).map (fun b => ⟨readKey b, fieldAt b 7 1⟩) })
    else none
  | .ask =>
    if fieldAt pl 0 1 ≤ 6 then some (.ask { header := h, keys := (pieces (pl.drop 1) 7 (fieldAt pl 0 1)).map readKey })
    else none
  | .carry =>
    if fieldAt pl 2 1 ≤ 4 ∧ fieldAt pl 3 1 ≤ fieldAt pl 2 1 ∧ fieldAt pl 1 1 ≤ 1 then
      some (.carry { header := h, burst := fieldAt pl 0 1, last := decide (fieldAt pl 1 1 = 1),
                     vouchers := (pieces (pl.drop 4) 17 (fieldAt pl 3 1)).map readVoucherItem,
                     receipts := (pieces (pl.drop (4 + 17 * fieldAt pl 3 1)) 30 (fieldAt pl 2 1 - fieldAt pl 3 1)).map
                       readReceiptItem })
    else none
  | .took =>
    if fieldAt pl 1 1 ≤ 4 then
      some (.took { header := h, burst := fieldAt pl 0 1, keys := (pieces (pl.drop 2) 7 (fieldAt pl 1 1)).map readKey })
    else none

/-- The frame kind a code names (R145). -/
def kindOfCode : Nat → Option FrameKind
  | 1 => some .hail
  | 2 => some .ask
  | 3 => some .carry
  | 4 => some .took
  | _ => none

/-- What becomes of a complete frame (R152). -/
inductive FrameFate where
  | discarded (counted : Bool)
  | good (f : AirFrame)
  deriving DecidableEq, Repr

/-- The five checks of R152 in their order, at the station with the given kit number. -/
def judgeFrame (kit : Nat) (bs : List Byte) : FrameFate :=
  if !crcPasses bs then .discarded true
  else if (readHeader bs).sender = kit then .discarded false
  else match kindOfCode (fieldAt bs 0 1) with
    | none => .discarded true
    | some k =>
      if fieldAt bs 1 1 ≠ kindClass k ∨ bs.length ≠ frameLength (kindClass k) then .discarded true
      else if !kitInRange (readHeader bs).sender then .discarded true
      else match readFrame k (readHeader bs) (bs.drop 14) with
        | none => .discarded true
        | some f => .good f

/-! ### COMMISSION parameters (R192) -/

/-- The role a code names (R192). -/
def roleOfCode : Nat → Option Role
  | 1 => some .ordinary
  | 2 => some .agent
  | _ => none

/-- The capture mode a code names (R192). -/
def captureOfCode : Nat → Option CaptureMode
  | 1 => some .first
  | 2 => some .last
  | _ => none

/-- Whether every parameter lies in its commissioning range (R161, R192). -/
def paramsInRange (p : Params) : Bool :=
  kitInRange p.kit && decide (p.key.length = 16) && [500, 1000, 2000].contains p.wake
    && decide (5 ≤ p.listenHold) && decide (p.listenHold ≤ 255)
    && decide (60 ≤ p.hailPeriod) && decide (p.hailPeriod ≤ 900) && decide (p.hailPeriod % 10 = 0)
    && decide (2 ≤ p.hopLimit) && decide (p.hopLimit ≤ 15) && decide (1 ≤ p.burst) && decide (p.burst ≤ 4)
    && decide (p.allowance ≤ 50) && decide (1 ≤ p.cap) && decide (p.cap ≤ 30) && decide (p.lowThreshold ≤ 5000)
    && decide (1 ≤ p.fallback) && decide (p.fallback ≤ 200) && decide (1200 ≤ p.relayCutoff) && decide (p.relayCutoff ≤ 1600)
    && decide (7 ≤ p.receiptLife) && decide (p.receiptLife ≤ 60) && decide (1 ≤ p.reportInterval)
    && decide (p.reportInterval ≤ 30)

/-- A role's code (R192). -/
def codeOfRole : Role → Nat
  | .ordinary => 1
  | .agent => 2

/-- A capture mode's code (R192). -/
def codeOfCapture : CaptureMode → Nat
  | .first => 1
  | .last => 2

/-- The parameters in a 38-byte COMMISSION body, if every one lies in its range (R192). -/
def readParams (b : List Byte) : Option Params :=
  match roleOfCode (fieldAt b 20 1), captureOfCode (fieldAt b 37 1) with
  | some role, some capture =>
    let p : Params :=
      { kit := fieldAt b 0 4, key := (b.drop 4).take 16, role := role, wake := fieldAt b 21 2, listenHold := fieldAt b 23 1
        hailPeriod := fieldAt b 24 2, hopLimit := fieldAt b 26 1, burst := fieldAt b 27 1, allowance := fieldAt b 28 1
        cap := fieldAt b 29 1, lowThreshold := fieldAt b 30 2, fallback := fieldAt b 32 1, relayCutoff := fieldAt b 33 2
        receiptLife := fieldAt b 35 1, reportInterval := fieldAt b 36 1, capture := capture }
    if paramsInRange p then some p else none
  | _, _ => none

/-! ### The nonvolatile store (R10, R160, R161) -/

/-- An account image's fields in the order of R160, as its CRC-16 covers them. The spec gives no widths: each field has
the fewest whole bytes that hold its range (notes/assumptions/11.md). -/
def imageBytes (i : Image) : List Byte :=
  bytesOf 4 i.sequence ++ bytesOf 4 i.kit ++ bytesOf 1 ((if i.commissioned then 1 else 0) + (if i.owned then 2 else 0))
    ++ bytesOf 3 i.energy ++ bytesOf 4 i.timeCredit ++ bytesOf 1 i.lifeline ++ bytesOf 2 i.lifelineDay ++ bytesOf 2 i.base
    ++ bytesOf 4 i.marks.toNat ++ bytesOf 3 i.reserve ++ bytesOf 4 i.chargeRem ++ bytesOf 4 i.lifetimeRem
    ++ bytesOf 4 i.lifetime ++ bytesOf 2 i.bypass ++ bytesOf 2 i.lastStatus

/-- The page that holds an image with its CRC-16 (R10, R160). -/
def pageOf (i : Image) : Page := .holds i (crc16 (imageBytes i))

/-- The commissioning block's values as its CRC-16 covers them, laid out as COMMISSION loads them (R161, R192;
notes/assumptions/11.md). -/
def blockBytes (p : Params) : List Byte :=
  bytesOf 4 p.kit ++ p.key ++ bytesOf 1 (codeOfRole p.role) ++ bytesOf 2 p.wake ++ bytesOf 1 p.listenHold
    ++ bytesOf 2 p.hailPeriod ++ bytesOf 1 p.hopLimit ++ bytesOf 1 p.burst ++ bytesOf 1 p.allowance ++ bytesOf 1 p.cap
    ++ bytesOf 2 p.lowThreshold ++ bytesOf 1 p.fallback ++ bytesOf 2 p.relayCutoff ++ bytesOf 1 p.receiptLife
    ++ bytesOf 1 p.reportInterval ++ bytesOf 1 (codeOfCapture p.capture)

/-- The commissioning block that holds parameters with their CRC-16 (R10, R161). -/
def blockOf (p : Params) : Block := .holds p (crc16 (blockBytes p))

/-! ### Service frames (R188) -/

/-- The start byte of a service frame (R188). -/
def serviceStart : Byte := 0x7E#8

/-- The greatest body length of a service frame (R188). -/
def serviceBodyMax : Nat := 200

/-- A command frame on the service line: start, command, length, body and CRC-16 over command, length and body (R188). -/
def requestBytes (code : Nat) (body : List Byte) : List Byte :=
  serviceStart :: withCrc (bytesOf 1 code ++ bytesOf 1 body.length ++ body)

/-- What the bytes of a command frame after its start byte come to so far (R189). -/
inductive RequestFate where
  /-- More bytes belong to the frame. -/
  | collecting
  /-- The frame is discarded. -/
  | discarded
  /-- The frame is taken: its command code and body. -/
  | taken (code : Byte) (body : List Byte)
  deriving DecidableEq, Repr

/-- A command frame judged by the bytes after its start byte: the length byte as soon as it is there, the CRC-16 when the
frame is whole (R10, R189). -/
def judgeRequest (bs : List Byte) : RequestFate :=
  match bs with
  | [] => .collecting
  | [_] => .collecting
  | code :: len :: rest =>
    if serviceBodyMax < len.toNat then .discarded
    else if rest.length < len.toNat + 2 then .collecting
    else if crcPasses bs then .taken code (rest.take len.toNat)
    else .discarded

/-- The command that a taken frame is, by its command code (R190, R191). -/
def commandOf (code : Byte) (body : List Byte) : Instr :=
  match code.toNat with
  | 1 => .identify body
  | 2 => .commission body
  | 3 => .setTime body
  | 4 => .status body
  | 5 => .inject body
  | 6 => .collect body
  | 7 => .armFault body
  | 8 => .restart body
  | 9 => .decommission body
  | _ => .unknownCommand code body

end Sys2Proof.Machine
end

