-- ==== Sys2Proof/Machine/Ops.lean ====
section
/-! DEFINITION. The operations the blocks share: handing a report on, drawing a free value, reading and writing the
checked regions (Chapter 10), writing the account record and deriving its state, the pending-own list's places (R36),
re-examination's triggers (R37), and entering HELD (R24, R34, R176). -/

namespace Sys2Proof.Machine

/-! ### Running a command -/

/-- A command's effect on the Controller while the main domain is powered; without power no block of it acts (0.6). -/
def onMain (f : Controller → Controller) (s : State) : Host.Outcome State Fault Refusal :=
  .next { s with ctl := if s.ctl.power.mainOn then f s.ctl else s.ctl }

/-- A command's effect on the Controller in every state of its supplies. -/
def onPart (f : Controller → Controller) (s : State) : Host.Outcome State Fault Refusal :=
  .next { s with ctl := f s.ctl }

/-! ### Reports between blocks -/

/-- A report handed to another block: it is an arrival of its own there (R60, R92). -/
def emit (i : Instr) (c : Controller) : Controller := { c with inTransit := c.inTransit ++ [i] }

/-- An arrival taken: the oldest copy of it in transit, if there is one, is in transit no longer. -/
def arrive (i : Instr) (c : Controller) : Controller := { c with inTransit := c.inTransit.erase i }

/-- A condition reported to the Account Unit by the block that owns its cause (R42). -/
def report (x : Condition) (c : Controller) : Controller := emit (.conditionReport (.raised x)) c

/-- The outcome answer to the keypad evaluation that awaits it, if one does (R28). -/
def answerWith (who : Option Nat) (a : Answer) (c : Controller) : Controller :=
  match who with
  | none => c
  | some n => emit (.outcomeAnswer n a) c

/-! ### Free values -/

/-- A fresh free value between `lo` and `hi`, both included (0.9; notes/assumptions/3.md). -/
def drawn (lo hi : Nat) (c : Controller) : Nat := lo + Config.draw c.draws % (hi - lo + 1)

/-- The draw counter moved past the value just drawn. -/
def afterDraw (c : Controller) : Controller := { c with draws := c.draws + 1 }

/-! ### Readings -/

/-- The commissioned kit number, 0 when uncommissioned (R191). -/
def ownKit (c : Controller) : Nat :=
  match c.params with
  | none => 0
  | some p => p.kit

/-- Whether the station is commissioned as an AGENT (R192). -/
def isAgent (c : Controller) : Bool :=
  match c.params with
  | none => false
  | some p => decide (p.role = .agent)

/-- The commissioned low threshold (R23). -/
def lowThreshold (c : Controller) : Nat :=
  match c.params with
  | none => 0
  | some p => p.lowThreshold

/-- The commissioned lifeline allowance (R78). -/
def allowance (c : Controller) : Nat :=
  match c.params with
  | none => 0
  | some p => p.allowance

/-- The commissioned hop limit H (R95). -/
def hopLimit (c : Controller) : Nat :=
  match c.params with
  | none => 0
  | some p => p.hopLimit

/-- Whether the district day is known: SET or PROVISIONAL. -/
def timeKnown (c : Controller) : Bool := !decide (c.clock.timeState = .unset)

/-- The account listens: it is commissioned and no DECOMMISSION is in progress (R22, R25, R46). -/
def accountListens (c : Controller) : Bool := c.account.live.commissioned && !c.decommissioning

/-! ### The checked regions (Chapter 10) -/

/-- The capture mode in force: the commissioned one, LAST without a good block (R173). -/
def captureMode (c : Controller) : CaptureMode :=
  match c.params with
  | none => .last
  | some p => p.capture

/-- A region's counts and capture after an error found on reading (R174 to R177). -/
def noteIn (mode : CaptureMode) (kind : ErrorKind) (address : Nat) (r : RegionCheck) : RegionCheck :=
  { corrected := if kind = .single then min 255 (r.corrected + 1) else r.corrected
    uncorrected := if kind = .double then min 15 (r.uncorrected + 1) else r.uncorrected
    capture := if mode = .first ∧ r.capture.isSome then r.capture else some ⟨address, kind⟩ }

/-- An error counted and captured in its region (R174 to R177). -/
def noteError (region : Region) (kind : ErrorKind) (address : Nat) (c : Controller) : Controller :=
  match region with
  | .store => { c with check := { c.check with store := noteIn (captureMode c) kind address c.check.store } }
  | .account => { c with check := { c.check with account := noteIn (captureMode c) kind address c.check.account } }

/-- The bits an armed fault flips: with count 2 and position 0, bit 0 alone (R179). -/
def flipsOf (a : ArmedFault) : List Nat := if a.count = 2 ∧ a.bit ≠ 0 then [a.bit, 0] else [a.bit]

/-- A word of a unit written: an armed fault of its region is planted in it and becomes absent (R179). -/
def plantFault (region : Region) (u : EntryUnit) (c : Controller) : Controller :=
  match c.check.armed with
  | none => c
  | some a =>
    if a.region = region then
      afterDraw { c with check := { c.check with
        armed := none, bad := c.check.bad ++ [⟨u, flipsOf a, drawn 0 65535 c⟩] } }
    else c

/-- The words of a unit written over: errors in them are never seen (R172). -/
def clearWords (u : EntryUnit) (c : Controller) : Controller :=
  { c with check := { c.check with bad := c.check.bad.filter (fun w => !decide (w.unit = u)) } }

/-- Units of the ACCOUNT region: the live record and, while one exists, the staged record (R172). -/
def inAccount : EntryUnit → Bool
  | .account => true
  | .staged => true
  | _ => false

/-- The words of the ACCOUNT region written over (R172). -/
def clearAccount (c : Controller) : Controller :=
  { c with check := { c.check with bad := c.check.bad.filter (fun w => !inAccount w.unit) } }

/-- The staged record discarded, or gone live: its words leave the ACCOUNT region with it (R172). -/
def withoutStaged (c : Controller) : Controller :=
  clearWords .staged { c with account := { c.account with staged := none } }

/-- An entry of the STORE region stored or changed: its words take fresh check bits (R172), then R179. -/
def storeWritten (u : EntryUnit) (c : Controller) : Controller := plantFault .store u (clearWords u c)

/-- A field of the account record written (R179). The spec lays the record out in no words and so does not say whether
the field's word is the bad one: a field's write leaves a bad word of the region as it is, and only the whole record
written afresh clears it (the model's choice, notes/assumptions/10.md). -/
def accountWritten (c : Controller) : Controller := plantFault .account .account c

/-- A staged record formed, every word of it written (R31, R172), then R179. -/
def stagedFormed (c : Controller) : Controller := plantFault .account .staged (clearWords .staged c)

/-- The whole account record written afresh, with no staged record beside it (R172, R176), then R179. -/
def accountRewritten (c : Controller) : Controller := plantFault .account .account (clearAccount c)

/-- A single error found: counted, captured, the corrected word written back, CORRECTED reported (R174). -/
def correctWord (region : Region) (w : BadWord) (c : Controller) : Controller :=
  report .corrected (noteError region .single w.address
    { c with check := { c.check with bad := c.check.bad.erase w } })

/-- A word with one wrong bit, which the code corrects (R172). -/
def isSingle (w : BadWord) : Bool := decide (w.flips.length ≤ 1)

/-! ### The account record -/

/-- A change of the live record; where no field changes there is no write (R179; notes/assumptions/10.md). -/
def writeLive (f : Record → Record) (c : Controller) : Controller :=
  if f c.account.live = c.account.live then c
  else accountWritten { c with account := { c.account with live := f c.account.live } }

/-- A change of the live record that a staged record follows by the same rule (R31); where no field of either changes
there is no write. An armed fault falls in the live record where that changes, which the model writes first, and else in the
staged one (R179; notes/assumptions/10.md). -/
def writeBoth (f : Record → Record) (c : Controller) : Controller :=
  if f c.account.live = c.account.live ∧ c.account.staged.map f = c.account.staged then c
  else plantFault .account (if f c.account.live = c.account.live then .staged else .account)
    { c with account := { c.account with live := f c.account.live, staged := c.account.staged.map f } }

/-- The account state derived afresh; a new one is made known at once to the Meter and the indicator and reaches the
Switch Controller as an arrival (R23, R71). -/
def derive (c : Controller) : Controller :=
  let st := deriveState (lowThreshold c) c.account.live
  if st = c.account.state then c
  else emit (.accountStateToSwitch st)
    { c with account := { c.account with state := st }, meter := { c.meter with known := st },
             keypad := { c.keypad with known := st } }

/-- A condition entering the set (R42). -/
def latch (x : Condition) (c : Controller) : Controller :=
  { c with account := { c.account with conditions := setWith x c.account.conditions } }

/-- A condition leaving the set (R43). -/
def unlatch (x : Condition) (c : Controller) : Controller :=
  { c with account := { c.account with conditions := setWithout x c.account.conditions } }

/-- Whether raising a condition now may call for an urgent STATUS receipt: all of R44's tests but the last status day's. An
UNCOMMISSIONED station, and one whose DECOMMISSION is in progress, only latches the condition and owes no STATUS: the model's
choice (notes/assumptions/40.md). -/
def mayCallForStatus (x : Condition) (c : Controller) : Bool :=
  isUrgent x && !c.account.conditions.contains x && timeKnown c && accountListens c

/-- Whether the last status day is another day than today (R44). -/
def statusDayPassed (c : Controller) : Bool := !decide (c.account.live.lastStatus = c.clock.day)

/-- Whether raising a condition now calls for an urgent STATUS receipt (R44). -/
def callsForStatus (x : Condition) (c : Controller) : Bool := mayCallForStatus x c && statusDayPassed c

/-! ### The pending-own list (R36) -/

/-- The list with an entry at its serial's place (R36). -/
def insertEntry (e : PendingEntry) : List PendingEntry → List PendingEntry
  | [] => [e]
  | x :: xs => if e.voucher.serial < x.voucher.serial then e :: x :: xs else x :: insertEntry e xs

/-- Whether the list takes a newcomer with this serial: it has room, or its highest serial is higher (R36). -/
def listTakes (serial : Nat) (l : List PendingEntry) : Bool :=
  decide (l.length < 4) || (match l.getLast? with
    | none => false
    | some x => decide (serial < x.voucher.serial))

/-- The list after a newcomer it takes: a full list drops its highest-serial entry (R36). -/
def listWith (e : PendingEntry) (l : List PendingEntry) : List PendingEntry :=
  insertEntry e (if l.length < 4 then l else l.dropLast)

/-- The entry a full list drops for a newcomer (R36). -/
def listDrops (l : List PendingEntry) : Option PendingEntry := if l.length < 4 then none else l.getLast?

/-- The entry with a serial. -/
def entryWith (serial : Nat) (l : List PendingEntry) : Option PendingEntry :=
  l.find? (fun e => decide (e.voucher.serial = serial))

/-- The outcome answer NOT-TAKEN of an entry that leaves the list before its first examination (R36, R175). -/
def answerDropped (e : Option PendingEntry) (c : Controller) : Controller :=
  match e with
  | none => c
  | some e => if e.unexamined then answerWith e.answerTo .notTaken c else c

/-- An entry placed in the list; one that joins a running pass is examined within it (R36, R37). -/
def placeEntry (e : PendingEntry) (c : Controller) : Controller :=
  storeWritten (.pendingOwn e.voucher.serial) (answerDropped (listDrops c.account.pendingOwn)
    { c with account := { c.account with
        pendingOwn := listWith e c.account.pendingOwn
        pass := c.account.pass.map (fun l => l.filter (fun n => !decide (n = e.voucher.serial))) } })

/-- An entry of the list changed in place. -/
def changeEntry (e : PendingEntry) (c : Controller) : Controller :=
  if entryWith e.voucher.serial c.account.pendingOwn = some e then c
  else storeWritten (.pendingOwn e.voucher.serial)
    { c with account := { c.account with
        pendingOwn := c.account.pendingOwn.map (fun x => if x.voucher.serial = e.voucher.serial then e else x) } }

/-- An entry removed from the list (R38). -/
def removeEntry (serial : Nat) (c : Controller) : Controller :=
  { c with account := { c.account with
      pendingOwn := c.account.pendingOwn.filter (fun x => !decide (x.voucher.serial = serial)) } }

/-! ### Reading the STORE region (R174, R175) -/

/-- The entry that holds a bad word dropped without retirement (R175). The ask queue's and the collection log's further
effects are their blocks' (Exchange.lean, Store.lean). -/
def dropUnit (u : EntryUnit) (c : Controller) : Controller :=
  match u with
  | .voucherSlot n => { c with store := { c.store with vouchers := c.store.vouchers.set n none } }
  | .receiptSlot n => { c with store := { c.store with receipts := c.store.receipts.set n none } }
  | .retiredKey k => { c with store := { c.store with retired := c.store.retired.erase k } }
  | .pendingOwn serial => removeEntry serial (answerDropped (entryWith serial c.account.pendingOwn) c)
  | .askEntry _ => c
  | .logEntry k => { c with store := { c.store with log := c.store.log.filter (fun r => !decide (receiptKey r = k)) } }
  | .account => c
  | .staged => c

/-- A double error found in the STORE region: counted, captured, the entry dropped, STORE-FAULT reported (R175). It is found
once: no read meets the word again before its place is next used, when it is written afresh (R175 and the table of 10.5.1;
notes/assumptions/10.md). -/
def faultWord (w : BadWord) (c : Controller) : Controller :=
  report .storeFault (dropUnit w.unit (noteError .store .double w.address
    { c with check := { c.check with bad := c.check.bad.erase w } }))

/-- A read of the units of the STORE region that `sel` selects (R172, R174, R175). Several errors of one read are captured in
the order in which their words went bad, the model's choice (notes/assumptions/36.md). -/
def readUnits (sel : EntryUnit → Bool) (c : Controller) : Controller :=
  (c.check.bad.filter (fun w => sel w.unit)).foldl
    (fun c w => if isSingle w then correctWord .store w c else faultWord w c) c

/-- Units of the voucher table. -/
def inVouchers : EntryUnit → Bool
  | .voucherSlot _ => true
  | _ => false

/-- Units of the receipt table. -/
def inReceipts : EntryUnit → Bool
  | .receiptSlot _ => true
  | _ => false

/-- Units of the retired-key list. -/
def inRetired : EntryUnit → Bool
  | .retiredKey _ => true
  | _ => false

/-- Units of the pending-own list. -/
def inPendingOwn : EntryUnit → Bool
  | .pendingOwn _ => true
  | _ => false

/-- Units of the collection log. -/
def inLog : EntryUnit → Bool
  | .logEntry _ => true
  | _ => false

/-- The pending-own list read through the Memory Check Unit (R172). -/
def readPendingOwn (c : Controller) : Controller := readUnits inPendingOwn c

/-! ### Re-examination's triggers (R37) -/

/-- The part of an entry's marks after its first examination has begun (R38). -/
def examined (e : PendingEntry) : PendingEntry := { e with unexamined := false, answerTo := none }

/-- A re-examination trigger marked (R37). -/
def trigger (c : Controller) : Controller := { c with account := { c.account with passDue := true } }

/-- The trigger that an examination's end marks while the list, read for its unexamined marks, holds an unexamined entry
(R37, R172). -/
def endExamination (c : Controller) : Controller :=
  let c := readPendingOwn c
  if c.account.pendingOwn.any (fun e => e.unexamined) then trigger c else c

/-- The entry a pass examines next: the lowest serial that it has not examined and that owes no receipt (R37). -/
def nextToExamine (done : List Nat) (l : List PendingEntry) : Option PendingEntry :=
  l.find? (fun e => e.owed.isNone && !done.contains e.voucher.serial)

/-! ### Reading the ACCOUNT region (R174, R176) -/

/-- The words of the ACCOUNT region, the staged record's among them (R172, R176), checked: single errors corrected, double
errors counted and captured (R174, R176). The order in which one read captures several errors is the model's choice: here the
single errors before the double ones (notes/assumptions/36.md). -/
def checkAccount (c : Controller) : Controller :=
  let words := c.check.bad.filter (fun w => inAccount w.unit)
  let c := (words.filter isSingle).foldl (fun c w => correctWord .account w c) c
  (words.filter (fun w => !isSingle w)).foldl (fun c w => noteError .account .double w.address c) c

/-- Whether a read of the ACCOUNT region hands its data on: it finds no double error (R176). -/
def accountReads (c : Controller) : Bool :=
  (c.check.bad.filter (fun w => inAccount w.unit && !isSingle w)).isEmpty

/-! ### HELD (R24, R34, R168, R176) -/

/-- The examination of an entry of the list while HELD is set: it stays, and the answer is PENDING (R29, check 1). -/
def examineHeld (e : PendingEntry) (c : Controller) : Controller :=
  answerWith e.answerTo .pending (changeEntry (examined e) (checkAccount c))

/-- The rest of a running pass while HELD is set, at most `n` steps: each entry left is examined and stays (R29, R37). -/
def finishPass : Nat → Controller → Controller
  | 0, c => c
  | n + 1, c =>
    match c.account.pass with
    | none => c
    | some done =>
      let c := readPendingOwn c
      match nextToExamine done c.account.pendingOwn with
      | none => { c with account := { c.account with pass := none } }
      | some e =>
        finishPass n (endExamination (examineHeld e
          { c with account := { c.account with pass := some (e.voucher.serial :: done) } }))

/-- The voucher of an application that HELD has overtaken goes to the list with its in-commit mark, or is given up when
the list refuses it (R34). Where the list holds an equal key, that entry keeps its own fields (R1) and takes the mark; for a
second copy that joined the list during the flight the mark is the model's choice (notes/assumptions/34.md). -/
def keepOvertaken (f : Flight) (c : Controller) : Controller :=
  match entryWith f.voucher.serial c.account.pendingOwn with
  | some e => answerWith f.answerTo .pending (changeEntry { e with inCommit := true } c)
  | none =>
    if listTakes f.voucher.serial c.account.pendingOwn then
      answerWith f.answerTo .pending (placeEntry ⟨f.voucher, false, true, false, none, none⟩ c)
    else answerWith f.answerTo .notTaken c

/-- The reports of a staged commit (R32, R33). -/
def ofStagedCommit : Instr → Bool
  | .stagedCommitVerified _ => true
  | .commitInhibitedReport => true
  | .commitFailedReport .staged => true
  | _ => false

/-- Every report in transit on a staged commit is of an application that is in flight no longer (R34; notes/assumptions/28.md). -/
def overtakeReports (c : Controller) : Controller :=
  { c with account := { c.account with overtaken := c.inTransit.filter ofStagedCommit } }

/-- The application in flight overtaken by HELD: the staged record is discarded, the voucher kept as R34 has it, and a
pass that it was part of goes on to its end (R34, R37). -/
def overtakeFlight (c : Controller) : Controller :=
  match c.account.flight with
  | none => withoutStaged c
  | some f =>
    let c := withoutStaged { c with account := { c.account with flight := none } }
    finishPass 5 (endExamination (keepOvertaken f (readPendingOwn (overtakeReports c))))

/-- A commit in flight when HELD overtakes the applications: a staged one is of an application in flight no longer (R34). -/
def Commit.whenHeld (cm : Commit) : Commit := { cm with overtaken := decide (cm.kind = .staged) }

/-- The Journal when the HELD flag is set: what waits is dropped, and the reload scan starts at once, or when the write
in flight ends (R168, R169). -/
def journalHeld (j : Journal) : Journal :=
  let j := { j with
    periodicPending := false, stagedWaiting := false, awaitingSafe := false, slot := j.slot.map Commit.whenHeld }
  if j.slot.isSome then { j with reloadOwed := true }
  else if j.writeState = .idle then { j with writeState := .scanning, scan := some .reload }
  else j

/-- The HELD flag set by an uncorrectable ACCOUNT error: HELD is raised, the flight overtaken, the Journal told and the
state derived. While the flag is set already nothing further starts (R24, R176). The last status day is compared as it
stands, without a second read of the region (notes/assumptions/10.md). -/
def enterHeld (c : Controller) : Controller :=
  if c.account.live.held then c
  else
    let c := if callsForStatus .held c then { c with account := { c.account with statusOwed := true } } else c
    let c := latch .held (writeLive (fun r => { r with held := true }) c)
    let c := overtakeFlight c
    derive { c with journal := journalHeld c.journal }

/-- A double error found in the ACCOUNT region: on a commissioned station it sets HELD; on an UNCOMMISSIONED one the bad
words are written afresh (R176). -/
def accountFault (c : Controller) : Controller :=
  if c.account.live.commissioned then enterHeld c
  else accountRewritten c

/-- A read of the ACCOUNT region (R172, R174, R176). -/
def readAccount (c : Controller) : Controller :=
  if accountReads c then checkAccount c else accountFault (checkAccount c)

end Sys2Proof.Machine
end

