-- ==== Sys2Proof/Machine/Clock.lean ====
section
/-! DEFINITION. The District Clock (Chapter 5): whole seconds, setting the time, hails as a source of time, and the
absence counter. -/

namespace Sys2Proof.Machine

/-- A time as one count (R82). -/
def timeCount (day second : Nat) : Nat := day * 86400 + second

/-- A day and second of day advanced by one second; the last moment of the last day stands (R83). -/
def advanceTime (day second : Nat) : Nat × Nat :=
  if second < Config.secondMax then (day, second + 1)
  else if day < Config.dayMax then (day + 1, 0)
  else (day, second)

/-- A day rollover event emitted: an arrival at each of three blocks (R92). -/
def emitRollover (day : Nat) (c : Controller) : Controller :=
  emit (.dayRolloverJournal day) (emit (.dayRolloverStore day) (emit (.dayRolloverAccount day) c))

/-- A second event emitted: an arrival at each of three blocks (R83). The Switch Controller's is listed before the Meter's,
since a sample requested at a second event is judged after the switch has taken it (R76; notes/assumptions/25.md). -/
def emitSecond (c : Controller) : Controller :=
  emit .secondEventMeter (emit .secondEventSwitch (emit .secondEventAccount c))

/-- A candidate record advanced by one second (R83, R89). -/
def advanceCandidate (k : Candidate) : Candidate :=
  { k with day := (advanceTime k.day k.second).1, second := (advanceTime k.day k.second).2 }

/-- The clock's registers one whole second on (R83, steps 1 to 3). -/
def secondPassed (k : Clock) : Clock :=
  { k with absence := min Config.timeMax (k.absence + 1), candidate := k.candidate.map advanceCandidate
           day := (advanceTime k.day k.second).1, second := (advanceTime k.day k.second).2, subSecond := 0 }

/-- Whether a whole second gives a midnight with a day rollover event (R83, R92). -/
def midnightRolls (k : Clock) : Bool :=
  decide (k.day < (advanceTime k.day k.second).1) && !decide (k.timeState = .unset)

/-- A whole second passes (R83). Events emitted while the main domain is off reach no block (R92). -/
def takeWholeSecond (c : Controller) : Controller :=
  let rolls := midnightRolls c.clock
  let c := { c with clock := secondPassed c.clock }
  if c.power.mainOn then
    emitSecond (if rolls then emitRollover c.clock.day c else c)
  else c

/-- The new time of a setting: the offered time exactly, or the later of it and the clock's own (R84, step 1). -/
def newTime (exact : Bool) (day second : Nat) (k : Clock) : Nat × Nat :=
  if exact || decide (timeCount k.day k.second ≤ timeCount day second) then (day, second) else (k.day, k.second)

/-- The clock after a setting (R84, steps 1 to 3). -/
def clockSet (exact : Bool) (day second : Nat) (st : TimeState) (k : Clock) : Clock :=
  { k with day := (newTime exact day second k).1, second := (newTime exact day second k).2, subSecond := 0, timeState := st
           candidate := if st = .unset then k.candidate else none }

/-- Whether a setting from one clock to another gives a rollover event (R84, step 4). -/
def settingRolls (old new : Clock) : Bool := decide (old.timeState = .unset) || decide (old.day < new.day)

/-- The time is set (R84). `exact` is the rule of SET-TIME at an AGENT station. -/
def setsTime (exact : Bool) (day second : Nat) (st : TimeState) (c : Controller) : Controller :=
  let old := c.clock
  let new := clockSet exact day second st old
  let c := { c with clock := new }
  let c := if settingRolls old new then emitRollover new.day c else c
  if old.timeState = st then c else emit (.timeStateReport st) c

/-- The later of two times (R84, R87). -/
def laterTime (d1 s1 d2 s2 : Nat) : Nat × Nat := if timeCount d2 s2 ≤ timeCount d1 s1 then (d1, s1) else (d2, s2)

/-- Whether two times lie within 600 s of each other (R87). -/
def within600 (d1 s1 d2 s2 : Nat) : Bool :=
  decide (timeCount d1 s1 ≤ timeCount d2 s2 + 600) && decide (timeCount d2 s2 ≤ timeCount d1 s1 + 600)

/-- A candidate recorded (R87). -/
def recordCandidate (peer day second : Nat) (c : Controller) : Controller :=
  { c with clock := { c.clock with candidate := some ⟨peer, day, second⟩ } }

/-- A usable ORDINARY HAIL while UNSET (R87). -/
def takePeer (peer day second : Nat) (c : Controller) : Controller :=
  match c.clock.candidate with
  | none => recordCandidate peer day second c
  | some k =>
    if k.peer ≠ peer ∧ within600 day second k.day k.second then
      setsTime false (laterTime day second k.day k.second).1 (laterTime day second k.day k.second).2 .provisional c
    else recordCandidate peer day second c

/-- Whether a HAIL is usable for time (R85). -/
def usableForTime (timeSet : Bool) (day second : Nat) : Bool :=
  timeSet && decide (day ≤ Config.dayMax) && decide (second ≤ Config.secondMax)

/-- A usable HAIL at the District Clock (R85 to R88). -/
def takeUsableHail (sender : Nat) (agent : Bool) (day second : Nat) (c : Controller) : Controller :=
  match c.clock.timeState, agent with
  | .unset, true => setsTime false day second .set c
  | .provisional, true => setsTime false day second .set c
  | .set, true =>
    if timeCount c.clock.day c.clock.second + 2 < timeCount day second then setsTime false day second .set c else c
  | .unset, false => takePeer sender day second c
  | .provisional, false => c
  | .set, false => c

/-- A good HAIL at the District Clock; hails reach it only while the radio is active (R85). -/
def takeHailTime (sender : Nat) (agent timeSet : Bool) (day second : Nat) (c : Controller) : Controller :=
  if c.radio.active && usableForTime timeSet day second then takeUsableHail sender agent day second c else c

/-- The absence counter set to 0 (R94). -/
def resetAbsence (c : Controller) : Controller := { c with clock := { c.clock with absence := 0 } }

/-- WHOLE_SECOND (R83): nothing passes while the always-on domain has no supply. -/
def execWholeSecond (s : State) : Host.Outcome State Fault Refusal :=
  onPart (fun c => if c.power.alwaysOn then takeWholeSecond c else c) s

/-- HAIL_TIME_ARRIVAL (R85 to R88). -/
def execHailTimeArrival (sender : Nat) (agent timeSet : Bool) (day second : Nat) (s : State) :
    Host.Outcome State Fault Refusal :=
  onMain (fun c => takeHailTime sender agent timeSet day second (arrive (.hailTimeArrival sender agent timeSet day second) c)) s

/-- ABSENCE_RESET (R94). -/
def execAbsenceReset (s : State) : Host.Outcome State Fault Refusal :=
  onMain (fun c => resetAbsence (arrive .absenceReset c)) s

end Sys2Proof.Machine
end

