-- ==== Sys2Proof/Machine/Journal.lean ====
section
/-! DEFINITION. The Journal's shared operations (Chapter 9): judging pages, commit requests, write attempts and the
image taken. Its commands stand in JournalCommands.lean. -/

namespace Sys2Proof.Machine

/-- Whether a page is valid under a good commissioning block: its CRC-16 check passes and its fields are in range (R160). -/
def pageValid (p : Params) : Page → Bool
  | .erased => false
  | .torn => false
  | .holds i crc =>
    decide (crc16 (imageBytes i) = crc) && decide (1 ≤ i.sequence) && decide (i.sequence ≤ Config.sequenceMax)
      && decide (i.kit = p.kit) && i.commissioned
      && decide (i.energy ≤ Config.energyMax) && decide (i.timeCredit ≤ Config.timeMax) && decide (i.lifeline ≤ p.allowance)
      && decide (i.lifelineDay ≤ Config.dayMax) && decide (i.base ≤ Config.serialMax)
      && decide (16 ≤ i.reserve) && decide (i.reserve ≤ Config.reserveMax) && decide (i.reserve % 16 = 0)
      && decide (i.chargeRem < Config.quantum) && decide (i.lifetimeRem < Config.quantum)
      && decide (i.lifetime ≤ Config.count32Max) && decide (i.bypass ≤ 65535) && decide (i.lastStatus ≤ Config.dayMax)

/-- The newest valid page of a list that begins with page number `n`: the highest sequence, the lower number among equals (R160). -/
def newestValid (p : Params) : Nat → List Page → Option (Nat × Image)
  | _, [] => none
  | n, pg :: rest =>
    match pg with
    | .holds i crc =>
      if pageValid p (.holds i crc) then
        match newestValid p (n + 1) rest with
        | none => some (n, i)
        | some (m, k) => if i.sequence < k.sequence then some (m, k) else some (n, i)
      else newestValid p (n + 1) rest
    | _ => newestValid p (n + 1) rest

/-- The parameters of a good commissioning block: its CRC-16 check passes and every value is in range (R161). -/
def goodBlock : Block → Option Params
  | .erased => none
  | .torn => none
  | .holds p crc => if crc16 (blockBytes p) = crc ∧ paramsInRange p = true then some p else none

/-- The reserve an image takes at the start of its write (R40). -/
def imageReserve (r : Record) : Nat :=
  if r.counter = some r.reserve ∧ r.reserve < Config.reserveMax then r.reserve + 16 else r.reserve

/-- The image of a record (R165): reserve, remainders, kit number and sequence as the write takes them. -/
def imageOf (rec : Record) (reserve seq : Nat) (c : Controller) : Image :=
  { sequence := seq, kit := ownKit c, commissioned := rec.commissioned, owned := rec.owned, energy := rec.energy
    timeCredit := rec.timeCredit, lifeline := rec.lifeline, lifelineDay := rec.lifelineDay, base := rec.base
    marks := rec.marks, reserve := reserve, chargeRem := c.meter.chargeRem, lifetimeRem := c.meter.lifetimeRem
    lifetime := rec.lifetime, bypass := rec.bypass, lastStatus := rec.lastStatus }

/-- A page begins to be erased and programmed: until the programming is complete its CRC fails (R166, R169). -/
def writePage (cm : Commit) (j : Journal) : Journal :=
  { j with slot := some cm, writeState := .writing, pages := j.pages.set cm.target .torn }

/-- The Journal has verified the commit of the application in flight, and its report is on its way (R166). -/
def flightVerified (c : Controller) : Bool :=
  match c.account.flight with
  | none => false
  | some f => f.verified

/-- The staged record of an application whose commit is verified, live before its report is taken: it replaces the live record
and the state is derived (R32). A voucher's effect goes live when the Journal reports its page verified; the model splits that
moment in two steps, and where an image is taken between them the record goes live first, so that the image holds the
effect and the mark (R31, R165): the model's choice (notes/assumptions/19.md). -/
def verifiedLive (c : Controller) : Controller :=
  match flightVerified c, c.account.staged with
  | true, some r => derive (writeLive (fun _ => r) (withoutStaged c))
  | _, _ => c

/-- The record a commit takes its image from: the staged record for a staged commit, the live record for a periodic one (R165). -/
def commitRecord (kind : CommitKind) (c : Controller) : Record :=
  match kind with
  | .staged => c.account.staged.getD c.account.live
  | .periodic => c.account.live

/-- The image taken and its first attempt begun at the page after the newest (R165, R166). -/
def startWrite (kind : CommitKind) (c : Controller) : Controller :=
  let image := imageOf (commitRecord kind c) (imageReserve c.account.live) (c.journal.newestSeq + 1) c
  let commit : Commit := { kind := kind, attempt := .first, target := (c.journal.newestPage + 1) % 16, image := image
                           overtaken := false }
  { c with journal := writePage commit { c.journal with periodicPending := false, stagedWaiting := false } }

/-- The kind of commit a write attempt serves: the staged one goes first (R163). -/
def attemptKind (j : Journal) : CommitKind := if j.stagedWaiting then .staged else .periodic

/-- A write attempt (R163, R164, R165, R167). -/
def beginAttempt (c : Controller) : Controller :=
  if !c.journal.stagedWaiting && !c.journal.periodicPending then c
  else if Config.sequenceMax ≤ c.journal.newestSeq then
    emit (.commitFailedReport (attemptKind c.journal))
      { c with journal := { c.journal with periodicPending := false, stagedWaiting := false } }
  else if !c.power.writeSafe then
    match attemptKind c.journal with
    | .staged => emit .commitInhibitedReport
        { c with journal := { c.journal with periodicPending := true, stagedWaiting := false, awaitingSafe := true } }
    | .periodic => { c with journal := { c.journal with awaitingSafe := true } }
  else if accountReads c then startWrite (attemptKind c.journal) (verifiedLive (readAccount c))
  else readAccount c

/-- Whether the Journal takes a commit request (R163, R169). -/
def takesRequests (c : Controller) : Bool :=
  accountListens c && !c.account.live.held && !decide (c.journal.writeState = .scanning)

/-- A request taken while the commit slot is empty begins a write attempt (R163). -/
def attemptIfFree (c : Controller) : Controller :=
  if c.journal.slot.isNone && decide (c.journal.writeState = .idle) then beginAttempt c else c

/-- A periodic commit request (R163). -/
def requestPeriodic (c : Controller) : Controller :=
  if takesRequests c then attemptIfFree { c with journal := { c.journal with periodicPending := true } } else c

/-- A staged commit request (R163). -/
def requestStaged (c : Controller) : Controller :=
  if takesRequests c then attemptIfFree { c with journal := { c.journal with stagedWaiting := true } } else c

/-- ERASING entered: the erasure waits while WRITE-SAFE is low; begun, it erases the commissioning block first (R171). A scan
under way is dropped, so that an absence that a MAIN START has read is neither deducted nor set to 0: the model's choice
(notes/assumptions/14.md). -/
def startErasure (c : Controller) : Controller :=
  { c with journal := { c.journal with
      writeState := .erasing, slot := none, periodicPending := false, stagedWaiting := false, awaitingSafe := false
      reloadOwed := false, scan := none, erasureWaits := !c.power.writeSafe
      block := if c.power.writeSafe then .erased else c.journal.block } }

/-- A waiting erasure begins when WRITE-SAFE rises (R171). -/
def beginErasure (c : Controller) : Controller :=
  { c with journal := { c.journal with erasureWaits := false, block := .erased } }

/-- A write has ended: DECOMMISSION's erasure, an owed reload, or the attempt of a waiting request follows (R163, R168). -/
def writeEnded (c : Controller) : Controller :=
  if c.decommissioning then startErasure c
  else if c.journal.reloadOwed then
    { c with journal := { c.journal with reloadOwed := false, writeState := .scanning, scan := some .reload } }
  else beginAttempt c

end Sys2Proof.Machine
end

