-- ==== Sys2Proof/Machine/Store.lean ====
section
/-! DEFINITION. The Relay Store (Chapter 6): admission and its reckoning, storing, retirement, collection, ageing and
offers. -/

namespace Sys2Proof.Machine

/-! ### Reading the tables -/

/-- The voucher and receipt tables read through the Memory Check Unit (R172). -/
def readTables (c : Controller) : Controller := readUnits (fun u => inVouchers u || inReceipts u) c

/-- The voucher table alone read through the Memory Check Unit (R103, R108, R112, R172). -/
def readVouchers (c : Controller) : Controller := readUnits inVouchers c

/-- The receipt table alone read through the Memory Check Unit, as placing, moving, retiring and ageing receipts do (R41, R109,
R110, R113, R172). -/
def readReceipts (c : Controller) : Controller := readUnits inReceipts c

/-- The retired-key list read through the Memory Check Unit. -/
def readRetired (c : Controller) : Controller := readUnits inRetired c

/-- The collections that the entry of a foreign voucher consults: the voucher table and the retired-key list (R117). -/
def readForEntry (c : Controller) : Controller := readRetired (readVouchers c)

/-- Whether some key is a foreign voucher's (R103). -/
def anyForeignVoucher (c : Controller) (keys : List ItemKey) : Bool :=
  keys.any (fun k => decide (k.type = .voucher) && !decide (k.kit = ownKit c))

/-- Whether some key is an own voucher's (R102). -/
def anyOwnVoucher (c : Controller) (keys : List ItemKey) : Bool :=
  keys.any (fun k => decide (k.type = .voucher) && decide (k.kit = ownKit c))

/-- Whether some key is a voucher's. -/
def anyVoucher (keys : List ItemKey) : Bool := keys.any (fun k => decide (k.type = .voucher))

/-- Whether some key is a receipt's. -/
def anyReceipt (keys : List ItemKey) : Bool := keys.any (fun k => decide (k.type = .receipt))

/-- The tables that the items of a carry are read from: the voucher table where a voucher's key is among those presented, the
receipt table where a receipt's is (R116). -/
def readForCarry (keys : List ItemKey) (c : Controller) : Controller :=
  readUnits (fun u => (anyVoucher keys && inVouchers u) || (anyReceipt keys && inReceipts u)) c

/-- A table slot as the room tests see it (R103, R104): empty, or an entry with its hop and arrival sequence, which may
yield its slot to a foreign newcomer or not. -/
inductive SlotView where
  | empty
  | entry (hop arrival : Nat) (yields : Bool)
  deriving DecidableEq, Repr

/-- The voucher table's slots as the room tests see them. -/
def voucherView (c : Controller) : List SlotView :=
  c.store.vouchers.map (fun e => match e with
    | none => .empty
    | some e => .entry e.voucher.hop e.arrival true)

/-- The receipt table's slots; own receipts never yield to a foreign newcomer (R104). -/
def receiptView (c : Controller) : List SlotView :=
  c.store.receipts.map (fun e => match e with
    | none => .empty
    | some e => .entry e.receipt.hop e.arrival (!e.own))

/-- The first empty slot, the slots being numbered from `n`. -/
def emptySlot : Nat → List SlotView → Option Nat
  | _, [] => none
  | n, .empty :: _ => some n
  | n, .entry _ _ _ :: rest => emptySlot (n + 1) rest

/-- The victim of a newcomer with new hop `h`: of the yielding entries with hop above `h`, the one with the greatest hop,
the earliest among equals; with its hop and arrival (R97, R103). -/
def victimFrom (h : Nat) : Nat → List SlotView → Option (Nat × Nat × Nat)
  | _, [] => none
  | n, .empty :: rest => victimFrom h (n + 1) rest
  | n, .entry hop arr yields :: rest =>
    match victimFrom h (n + 1) rest with
    | none => if yields && decide (h < hop) then some (n, hop, arr) else none
    | some (m, vh, va) =>
      if yields && decide (h < hop) && (decide (vh < hop) || (decide (vh = hop) && decide (arr ≤ va))) then some (n, hop, arr)
      else some (m, vh, va)

/-- The slot a newcomer with new hop `h` would take: an empty one, else its victim's (R103, R104). -/
def roomFor (h : Nat) (view : List SlotView) : Option Nat :=
  match emptySlot 0 view with
  | some n => some n
  | none => (victimFrom h 0 view).map (fun v => v.1)

/-! ### Admission (R101 to R106) -/

/-- The verdicts of the admission test (R101); a WANT of a table names the slot. -/
inductive Verdict where
  | want (slot : Option Nat)
  | holds
  | refuse
  deriving DecidableEq, Repr

/-- The reckoning of an ASK: the room not yet used and the keys answered (R106). -/
structure Reckoning where
  vouchers : List SlotView
  receipts : List SlotView
  logged : Nat
  answered : List ItemKey
  deriving DecidableEq, Repr

/-- The reckoning that starts from the store as it stands (R106). -/
def reckoningOf (c : Controller) : Reckoning := ⟨voucherView c, receiptView c, c.store.log.length, []⟩

/-- Whether the voucher table holds a key. -/
def holdsVoucher (c : Controller) (k : ItemKey) : Bool :=
  c.store.vouchers.any (fun e => match e with
    | none => false
    | some e => decide (voucherKey e.voucher = k))

/-- Whether the receipt table holds a key. -/
def holdsReceipt (c : Controller) (k : ItemKey) : Bool :=
  c.store.receipts.any (fun e => match e with
    | none => false
    | some e => decide (receiptKey e.receipt = k))

/-- Whether the collection log holds a key. -/
def logHolds (c : Controller) (k : ItemKey) : Bool := c.store.log.any (fun r => decide (receiptKey r = k))

/-- The admission test of an own voucher, against the account (R102). A window that cannot be read leaves the test
uncompleted, and the voucher is not asked for or taken now (R176). Between a start and its scan's end the record tested is
the blank one, the model's choice (notes/assumptions/32.md). -/
def admitOwn (c : Controller) (k : ItemKey) : Verdict :=
  if !accountReads c then .refuse
  else if classify c.account.live.base c.account.live.marks k.serial = .duplicate
      || (entryWith k.serial c.account.pendingOwn).isSome || c.store.retired.contains k then .holds
  else if !listTakes k.serial c.account.pendingOwn then .refuse
  else .want none

/-- The room tests of a foreign item with new hop `h` (R103, R104, steps 2 to 6). -/
def admitForeign (c : Controller) (h : Nat) (view : List SlotView) : Verdict :=
  if c.exchange.suspended then .refuse
  else if hopLimit c < h then .refuse
  else match roomFor h view with
    | some n => .want (some n)
    | none => .refuse

/-- The admission test of a key with its offered hop, against a reckoning (R101 to R106). -/
def admissionTest (c : Controller) (r : Reckoning) (k : ItemKey) (hop : Nat) : Verdict :=
  match k.type with
  | .voucher =>
    if k.kit = ownKit c then admitOwn c k
    else if holdsVoucher c k || c.store.retired.contains k then .holds
    else admitForeign c (hop + 1) r.vouchers
  | .receipt =>
    if decide (k.kit = ownKit c) || c.store.retired.contains k then .holds
    else if isAgent c then
      if logHolds c k then .holds else if r.logged < 256 then .want none else .refuse
    else if holdsReceipt c k then .holds
    else admitForeign c (hop + 1) r.receipts

/-- A slot used in a reckoning: it is neither empty nor a victim for a later key (R106). -/
def useSlot (slot : Option Nat) (view : List SlotView) : List SlotView :=
  match slot with
  | none => view
  | some n => view.set n (.entry 0 0 false)

/-- The reckoning after a key has been answered (R106). -/
def reckoned (c : Controller) (r : Reckoning) (k : ItemKey) (v : Verdict) : Reckoning :=
  match v, k.type with
  | .want slot, .voucher => { r with vouchers := useSlot slot r.vouchers, answered := k :: r.answered }
  | .want slot, .receipt =>
    if isAgent c then { r with logged := r.logged + 1, answered := k :: r.answered }
    else { r with receipts := useSlot slot r.receipts, answered := k :: r.answered }
  | _, _ => { r with answered := k :: r.answered }

/-- The keys answered WANT, in order, of candidates presented to a reckoning (R106). -/
def wanted (c : Controller) : Reckoning → List (ItemKey × Nat) → List ItemKey
  | _, [] => []
  | r, (k, hop) :: rest =>
    if r.answered.contains k then wanted c r rest
    else match admissionTest c r k hop with
      | .want slot => k :: wanted c (reckoned c r k (.want slot)) rest
      | .holds => wanted c (reckoned c r k .holds) rest
      | .refuse => wanted c (reckoned c r k .refuse) rest

/-! ### Retirement (R98, R108) -/

/-- The retired-key list with a key added (R98). -/
def retiredWith (k : ItemKey) (l : List ItemKey) : List ItemKey :=
  if l.contains k then l else if l.length < 32 then l ++ [k] else l.drop 1 ++ [k]

/-- A key added to the retired-key list (R98). -/
def retireKey (k : ItemKey) (c : Controller) : Controller :=
  let c := readRetired c
  if c.store.retired.contains k then c
  else storeWritten (.retiredKey k) { c with store := { c.store with retired := retiredWith k c.store.retired } }

/-- The voucher table without a key's entry. -/
def vouchersWithout (k : ItemKey) (l : List (Option VoucherEntry)) : List (Option VoucherEntry) :=
  l.map (fun e => match e with
    | none => none
    | some e => if voucherKey e.voucher = k then none else some e)

/-- The receipt table without a key's entry. -/
def receiptsWithout (k : ItemKey) (l : List (Option ReceiptEntry)) : List (Option ReceiptEntry) :=
  l.map (fun e => match e with
    | none => none
    | some e => if receiptKey e.receipt = k then none else some e)

/-- A voucher key retired by a final receipt, for which the voucher table is searched (R108, R172). For an own key the
pending-own list, searched too, loses its entry (R38); where that entry is a second copy that has not been examined, the spec
gives it no outcome answer, and the model's choice is to give none (notes/assumptions/30.md). -/
def retireVoucherKey (k : ItemKey) (c : Controller) : Controller :=
  let c := readVouchers c
  let c := retireKey k { c with store := { c.store with vouchers := vouchersWithout k c.store.vouchers } }
  if k.kit = ownKit c then removeEntry k.serial (readPendingOwn c) else c

/-- A receipt's final outcome retires the voucher it concerns; any other outcome retires nothing (R7, R108). -/
def retireConcerned (r : Receipt) (c : Controller) : Controller :=
  if isFinal r.outcome then retireVoucherKey (concernedKey r) c else c

/-- A receipt key retired by an AGENT's TOOK (R109). -/
def retireReceiptKey (k : ItemKey) (c : Controller) : Controller :=
  retireKey k { c with store := { c.store with receipts := receiptsWithout k c.store.receipts } }

/-! ### Storing (R96, R97, R107) -/

/-- The arrival sequence counter's value is taken (R97). -/
def nextArrival (c : Controller) : Controller :=
  { c with store := { c.store with arrivals := min Config.count32Max (c.store.arrivals + 1) } }

/-- A displacement reported: the slot held an entry (R107, R117). -/
def reportDisplaced (wasFull : Bool) (c : Controller) : Controller := if wasFull then report .storeFull c else c

/-- A voucher stored in a slot, an entry there giving way (R107, R117). -/
def storeVoucher (slot : Nat) (v : Voucher) (isLocal : Bool) (c : Controller) : Controller :=
  let full := (c.store.vouchers.getD slot none).isSome
  let entry : VoucherEntry := ⟨v, c.store.arrivals, isLocal⟩
  nextArrival (storeWritten (.voucherSlot slot)
    (reportDisplaced full { c with store := { c.store with vouchers := c.store.vouchers.set slot (some entry) } }))

/-- A receipt with created day 0 stamped with today where the time is known (R96). -/
def stamped (c : Controller) (r : Receipt) : Receipt :=
  if r.created = 0 ∧ c.clock.timeState ≠ .unset then { r with created := c.clock.day } else r

/-- A receipt stored in a slot, an entry there giving way (R96, R107). -/
def storeReceipt (slot : Nat) (r : Receipt) (own : Bool) (c : Controller) : Controller :=
  let full := (c.store.receipts.getD slot none).isSome
  let entry : ReceiptEntry := ⟨stamped c r, c.store.arrivals, own⟩
  nextArrival (storeWritten (.receiptSlot slot)
    (reportDisplaced full { c with store := { c.store with receipts := c.store.receipts.set slot (some entry) } }))

/-! ### Collection at an agent station (R110, R111) -/

/-- A receipt appended to the collection log (R99, R110). -/
def appendLog (r : Receipt) (c : Controller) : Controller :=
  storeWritten (.logEntry (receiptKey r)) { c with store := { c.store with log := c.store.log ++ [r] } }

/-- The earliest of the receipt table's entries that `sel` selects, the slots being numbered from `n`; with its arrival. -/
def earliestFrom (sel : Nat → ReceiptEntry → Bool) : Nat → List (Option ReceiptEntry) → Option (Nat × ReceiptEntry)
  | _, [] => none
  | n, none :: rest => earliestFrom sel (n + 1) rest
  | n, some e :: rest =>
    match earliestFrom sel (n + 1) rest with
    | none => if sel n e then some (n, e) else none
    | some (m, f) => if sel n e && decide (e.arrival ≤ f.arrival) then some (n, e) else some (m, f)

/-- Own receipts moved to the collection log, earliest first, while it has room; at most `n` of them (R110). -/
def moveOwnUpTo : Nat → Controller → Controller
  | 0, c => c
  | n + 1, c =>
    if c.store.log.length < 256 then
      match earliestFrom (fun _ e => e.own) 0 c.store.receipts with
      | none => c
      | some (slot, e) =>
        moveOwnUpTo n (retireKey (receiptKey e.receipt) (appendLog e.receipt
          { c with store := { c.store with receipts := c.store.receipts.set slot none } }))
    else c

/-- The move of own receipts to the collection log at an AGENT station (R110), which reads the receipt table first where the
log has room (R172). -/
def moveOwn (c : Controller) : Controller :=
  if isAgent c && decide (c.store.log.length < 256) then moveOwnUpTo 48 (readReceipts c) else c

/-- The collection log read through the Memory Check Unit; a drop of an entry calls for a move (R110, R175). -/
def readLog (c : Controller) : Controller :=
  let d := readUnits inLog c
  if d.store.log.length < c.store.log.length then moveOwn d else d

/-- A foreign receipt collected at an AGENT station (R110). -/
def collectReceipt (r : Receipt) (c : Controller) : Controller :=
  let r := stamped c r
  retireConcerned r (retireKey (receiptKey r) (appendLog r c))

/-- The collections that the admission tests of some keys consult, read through the Memory Check Unit: the pending-own list
for own vouchers, the voucher table for foreign ones, for receipts the receipt table or, at an AGENT station, the collection
log, and the retired-key list for any key (R101 to R105, R172). -/
def readStore (keys : List ItemKey) (c : Controller) : Controller :=
  let c := readUnits (fun u => (anyForeignVoucher c keys && inVouchers u)
    || (anyReceipt keys && !isAgent c && inReceipts u) || (!keys.isEmpty && inRetired u)) c
  let c := if anyReceipt keys && isAgent c then readLog c else c
  if anyOwnVoucher c keys then readPendingOwn c else c

/-- A foreign voucher that a CARRY brings stored by R107, in the slot its verdict names. -/
def takeVoucher (slot : Option Nat) (v : Voucher) (c : Controller) : Controller :=
  match slot with
  | none => c
  | some n => storeVoucher n v false c

/-- A foreign receipt that a CARRY brings taken: collected at an AGENT station (R110), else stored, its final outcome
retiring its voucher (R107). -/
def takeReceipt (slot : Option Nat) (r : Receipt) (c : Controller) : Controller :=
  if isAgent c then collectReceipt r c
  else match slot with
    | none => c
    | some n => retireConcerned r (storeReceipt n r false c)

/-! ### Own receipts (R41) -/

/-- The slot that an own receipt takes when the table is full: the foreign receipt of greatest hop, else the earliest
own STATUS, else the earliest own receipt (R41). -/
def ownDisplaces (c : Controller) : Nat :=
  match victimFrom 0 0 ((receiptView c).map (fun v => match v with
      | .empty => .empty
      | .entry hop arr yields => .entry (hop + 1) arr yields)) with
  | some (n, _, _) => n
  | none =>
    match earliestFrom (fun _ e => e.own && decide (e.receipt.outcome = .status)) 0 c.store.receipts with
    | some (n, _) => n
    | none =>
      match earliestFrom (fun _ e => e.own) 0 c.store.receipts with
      | some (n, _) => n
      | none => 0

/-- The slot an own receipt takes (R41). -/
def ownSlot (c : Controller) : Nat :=
  match emptySlot 0 (receiptView c) with
  | some n => n
  | none => ownDisplaces c

/-- An own receipt placed in the receipt table, and moved on to the log at an AGENT station (R41, R110). -/
def placeOwnReceipt (r : Receipt) (c : Controller) : Controller :=
  let c := readReceipts c
  moveOwn (storeReceipt (ownSlot c) r true c)

/-! ### Foreign vouchers entered here (R117) -/

/-- The store's answers to a typed or injected foreign voucher (R117). -/
inductive EntryAnswer where
  | taken | alreadyHeld | retired | noRoom
  deriving DecidableEq, Repr

/-- The answer to a foreign voucher entered here (R117). -/
def entryAnswer (c : Controller) (v : Voucher) : EntryAnswer :=
  if holdsVoucher c (voucherKey v) then .alreadyHeld
  else if c.store.retired.contains (voucherKey v) then .retired
  else match roomFor 0 (voucherView c) with
    | some _ => .taken
    | none => .noRoom

/-- The effect of a foreign voucher entered here (R117). -/
def enterVoucher (v : Voucher) (c : Controller) : Controller :=
  match entryAnswer c v, roomFor 0 (voucherView c) with
  | .taken, some n => storeVoucher n { v with hop := 0 } true c
  | _, _ => c

/-! ### Finishing by time (R112, R113) -/

/-- The sweep of the voucher table's slots from number `n` on, against a day (R112). -/
def sweepVouchers (day : Nat) : List Nat → Controller → Controller
  | [], c => c
  | n :: rest, c =>
    match c.store.vouchers.getD n none with
    | none => sweepVouchers day rest c
    | some e =>
      if fullUseBy e.voucher.useBy < day then
        sweepVouchers day rest (retireKey (voucherKey e.voucher)
          { c with store := { c.store with vouchers := c.store.vouchers.set n none } })
      else sweepVouchers day rest c

/-- The stamping of receipts with created day 0 (R113, first step). -/
def stampReceipts (day : Nat) : List Nat → Controller → Controller
  | [], c => c
  | n :: rest, c =>
    match c.store.receipts.getD n none with
    | none => stampReceipts day rest c
    | some e =>
      if e.receipt.created = 0 then
        stampReceipts day rest (storeWritten (.receiptSlot n)
          { c with store := { c.store with
              receipts := c.store.receipts.set n (some { e with receipt := { e.receipt with created := day } }) } })
      else stampReceipts day rest c

/-- The ageing of the receipt table against a day and a lifetime (R113, second step). -/
def ageReceipts (day life : Nat) : List Nat → Controller → Controller
  | [], c => c
  | n :: rest, c =>
    match c.store.receipts.getD n none with
    | none => ageReceipts day life rest c
    | some e =>
      if e.receipt.created + life < day then
        ageReceipts day life rest (retireKey (receiptKey e.receipt)
          { c with store := { c.store with receipts := c.store.receipts.set n none } })
      else ageReceipts day life rest c

/-- The slots of a table in their order. -/
def tableSlots : List Nat := List.range 48

/-- The store's handling of a day rollover event: the sweep of the voucher table, then the stamping of the receipts and their
ageing, which reads what the stamping wrote (R112, R113, R172). -/
def storeRollover (day : Nat) (c : Controller) : Controller :=
  match c.params with
  | none => c
  | some p =>
    ageReceipts day p.receiptLife tableSlots (readReceipts (stampReceipts day tableSlots (readReceipts
      (sweepVouchers day tableSlots (readVouchers c)))))

/-! ### Offers and carries (R114 to R116) -/

/-- The slots of up to `n` own receipts, earliest first, not counting those listed already (R114, part 1). -/
def ownOffers (c : Controller) : Nat → List Nat → List Nat
  | 0, listed => listed
  | n + 1, listed =>
    match earliestFrom (fun slot e => e.own && !listed.contains slot) 0 c.store.receipts with
    | none => listed
    | some (slot, _) => ownOffers c n (listed ++ [slot])

/-- The key and hop at an offer position (R115). -/
def offerAt (c : Controller) (pos : Nat) : Option (ItemKey × Nat) :=
  if pos < 48 then (c.store.vouchers.getD pos none).map (fun e => (voucherKey e.voucher, e.voucher.hop))
  else (c.store.receipts.getD (pos - 48) none).map (fun e => (receiptKey e.receipt, e.receipt.hop))

/-- The positions the round lists: up to `room`, from the cursor upwards, those that hold an entry not listed in part 1 (R115). -/
def roundPositions (c : Controller) (own : List Nat) (room : Nat) : List Nat :=
  (((List.range 96).map (fun i => (c.store.cursor + i) % 96)).filter
    (fun pos => (offerAt c pos).isSome && (decide (pos < 48) || !own.contains (pos - 48)))).take room

/-- The offer list of a HAIL and the offer cursor after it (R114, R115). -/
def composeOffer (c : Controller) : List (ItemKey × Nat) × Nat :=
  let own := ownOffers c 3 []
  let round := roundPositions c own (10 - own.length)
  ((own.map (· + 48) ++ round).filterMap (offerAt c),
    match round.getLast? with
    | none => c.store.cursor
    | some pos => (pos + 1) % 96)

/-- The number of empty slots of a table (R114). -/
def emptyCount {α : Type} (l : List (Option α)) : Nat := (l.filter Option.isNone).length

/-- The voucher item a key gives (R116). -/
def carriedVoucher (c : Controller) (k : ItemKey) : Option VoucherItem :=
  c.store.vouchers.findSome? (fun e => match e with
    | none => none
    | some e => if voucherKey e.voucher = k then some (itemOfVoucher e.voucher) else none)

/-- The receipt item a key gives (R116). -/
def carriedReceipt (c : Controller) (k : ItemKey) : Option ReceiptItem :=
  c.store.receipts.findSome? (fun e => match e with
    | none => none
    | some e => if receiptKey e.receipt = k then some (itemOfReceipt e.receipt) else none)

/-- Whether a key gives an item (R116). -/
def givesItem (c : Controller) (k : ItemKey) : Bool := (carriedVoucher c k).isSome || (carriedReceipt c k).isSome

/-! ### The command -/

/-- DAY_ROLLOVER_STORE (R112, R113). -/
def execDayRolloverStore (day : Nat) (s : State) : Host.Outcome State Fault Refusal :=
  onMain (fun c => storeRollover day (arrive (.dayRolloverStore day) c)) s

end Sys2Proof.Machine
end

