-- ==== Sys2Proof/Machine/Receipts.lean ====
section
/-! DEFINITION. The making of receipts (R8, R39, R40, R45), what is owed (R35, R45), and the raising of conditions (R42, R44). -/

namespace Sys2Proof.Machine

/-- Whether a receipt can be made: HELD is clear, the counter is not UNKNOWN and is below the live reserve (R39). -/
def canMakeReceipt (c : Controller) : Bool :=
  accountListens c && !c.account.live.held && (match c.account.live.counter with
    | none => false
    | some n => decide (n < c.account.live.reserve))

/-- The receipt serial that the next receipt takes (R39). -/
def nextSerial (c : Controller) : Nat :=
  match c.account.live.counter with
  | none => 0
  | some n => n

/-- A receipt filled from the state as it stands (R6, R8, R178). -/
def fillReceipt (o : ReceiptOutcome) (voucherSerial : Nat) (unchecked : Bool) (c : Controller) : Receipt :=
  { origin := ownKit c, serial := nextSerial c
    created := if timeKnown c then c.clock.day else 0
    outcome := o, unchecked := unchecked, voucherSerial := voucherSerial
    state := deriveState (lowThreshold c) c.account.live
    energy := c.account.live.energy, hours := c.account.live.timeCredit / 3600, lifetime := c.account.live.lifetime
    conditions := c.account.conditions, bypass := c.account.live.bypass
    corrected := min 255 (c.check.store.corrected + c.check.account.corrected)
    uncorrected := min 15 (c.check.store.uncorrected + c.check.account.uncorrected)
    discards := c.radio.discards, hop := 0 }

/-- The commit that a counter equal to the live reserve asks for (R40). -/
def requestIfReserveReached (c : Controller) : Controller :=
  if c.account.live.counter = some c.account.live.reserve then requestPeriodic c else c

/-- A receipt made: it takes the counter, is placed, and a final outcome retires its voucher (R39, R40, R108). -/
def makeReceipt (o : ReceiptOutcome) (voucherSerial : Nat) (unchecked : Bool) (c : Controller) : Controller :=
  let r := fillReceipt o voucherSerial unchecked c
  let c := writeBoth (fun rec => { rec with counter := rec.counter.map (· + 1) }) c
  requestIfReserveReached (retireConcerned r (placeOwnReceipt r c))

/-- Whether a receipt is made where a rule calls for one: one can be made, and the read of the account that fills it
finds no double error (R39, R176). -/
def receiptPossible (c : Controller) : Bool := accountReads c && canMakeReceipt c

/-- A receipt filled where a rule calls for one: the record is read, and where it reads and a receipt can be made, `make`
follows; otherwise `other` does, a double error having set HELD (R39, R176). -/
def whenReceipt (make other : Controller → Controller) (c : Controller) : Controller :=
  if receiptPossible c then make (readAccount c) else other (readAccount c)

/-- The reporting step of a STATUS receipt (R45, step 4; R154, R178). -/
def reportingStep (c : Controller) : Controller :=
  { c with
    account := { c.account with conditions := stateConditions c.account.conditions }
    check := { c.check with
      store := { c.check.store with corrected := 0, uncorrected := 0 }
      account := { c.check.account with corrected := 0, uncorrected := 0 } }
    radio := { c.radio with discards := 0 } }

/-- A STATUS receipt made (R45). The counts are reset with the copy that the receipt takes of them, so that an error found while
the receipt is placed is kept for the next one (R178). STORE-FULL from the receipt's own placement (R41) is handed on like every
report, so that it is pending after the STATUS: the model's choice (notes/assumptions/44.md). The commit that the counter's rise
may ask for (R40) is asked for after the last status day is set, so that an image taken at once holds that day: the model's
choice (notes/assumptions/37.md). -/
def makeStatus (c : Controller) : Controller :=
  let r := fillReceipt .status 0 false c
  let c := writeBoth (fun rec => { rec with counter := rec.counter.map (· + 1) }) (reportingStep c)
  let c := placeOwnReceipt r c
  requestIfReserveReached (if timeKnown c then writeBoth (fun rec => { rec with lastStatus := c.clock.day }) c else c)

/-- A STATUS receipt is owed (R45). -/
def oweStatus (c : Controller) : Controller := { c with account := { c.account with statusOwed := true } }

/-- A STATUS receipt that is due: made at once when one can be made, owed otherwise; one is owed at a time (R44, R45). -/
def dueStatus (c : Controller) : Controller :=
  if c.account.statusOwed then c else whenReceipt makeStatus oweStatus c

/-- A condition raised, with the urgent STATUS that this may call for, for which the last status day is read (R42, R44, R172).
Where that read finds a double error the condition is latched, and the test is not completed: no STATUS is made or owed for it.
Where HELD stands already, so that the read sets nothing, this is the model's choice (R176; notes/assumptions/45.md). -/
def raise (x : Condition) (c : Controller) : Controller :=
  if !mayCallForStatus x c then latch x c
  else if !accountReads c then readAccount (latch x c)
  else
    let c := readAccount (latch x c)
    if statusDayPassed c then dueStatus c else c

/-- The STATUS that is owed, made when a receipt can be made (R45). -/
def releaseStatus (c : Controller) : Controller :=
  if c.account.statusOwed then
    whenReceipt (fun c => makeStatus { c with account := { c.account with statusOwed := false } }) id c
  else c

/-- The owed entry with the lowest serial (R35). -/
def firstOwed (l : List PendingEntry) : Option (PendingEntry × Owed) :=
  l.findSome? (fun e => e.owed.map (fun o => (e, o)))

/-- The receipts owed by entries of the list, in ascending serial order, at most `n` of them, for as long as receipts can
be made (R35). A receipt made for an entry removes it (R38). -/
def makeOwed : Nat → Controller → Controller
  | 0, c => c
  | n + 1, c =>
    let c := readPendingOwn c
    match firstOwed c.account.pendingOwn with
    | none => c
    | some (e, o) =>
      whenReceipt (fun c => makeOwed n (removeEntry e.voucher.serial (makeReceipt o.outcome e.voucher.serial o.unchecked c)))
        id c

/-- What a verified commit does in the account while HELD is clear, besides a staged record's going live (R32). -/
def goodCommit (reserve : Nat) (c : Controller) : Controller :=
  let c := unlatch .journalFault c
  writeBoth (fun rec => { rec with reserve := reserve }) { c with account := { c.account with metered := 0 } }

/-- The receipts that wait for a verified commit: first those owed by the list, then the STATUS (R35, R45). -/
def settleOwed (c : Controller) : Controller := releaseStatus (makeOwed 4 c)

end Sys2Proof.Machine
end

