-- ==== Sys2Proof/Machine/Account.lean ====
section
/-! DEFINITION. The Account Unit (Chapter 2): delivery, examination, staging, re-examination, and its commands. -/

namespace Sys2Proof.Machine

/-! ### Examination (R28 to R36) -/

/-- Whether an examination's voucher is in the list or has a place there (R36). -/
def canHold (e : PendingEntry) (inList : Bool) (c : Controller) : Bool :=
  inList || listTakes e.voucher.serial c.account.pendingOwn

/-- The voucher kept in the list: an entry stays with its marks, a delivered one takes its place (R36). -/
def hold (e : PendingEntry) (inList : Bool) (c : Controller) : Controller :=
  if inList then changeEntry e c else placeEntry e c

/-- The voucher goes to the list or stays in it, with the answer PENDING, or is given up with NOT-TAKEN (R29, R33, R36). -/
def keepBack (e : PendingEntry) (inList : Bool) (who : Option Nat) (c : Controller) : Controller :=
  if canHold e inList c then answerWith who .pending (hold e inList c) else answerWith who .notTaken c

/-- A non-final outcome, AHEAD or FULL: the voucher waits in the list, and gives its one receipt when one can be made (R29, R30). -/
def nonFinal (o : ReceiptOutcome) (unchecked : Bool) (e : PendingEntry) (inList : Bool) (who : Option Nat) (c : Controller) :
    Controller :=
  if !canHold e inList c then answerWith who .notTaken c
  else if !e.reported && receiptPossible c then
    makeReceipt o e.voucher.serial unchecked (readAccount (keepBack { e with reported := true } inList who c))
  else if e.reported then keepBack e inList who c
  else readAccount (keepBack e inList who c)

/-- A receipt with a final outcome for a voucher: made at once, or owed by the voucher's entry (R32, R34, R35). -/
def settleFinal (o : ReceiptOutcome) (unchecked : Bool) (e : PendingEntry) (inList : Bool) (c : Controller) : Controller :=
  let owing := { e with inCommit := false, owed := some ⟨o, unchecked⟩ }
  whenReceipt (fun c => removeEntry e.voucher.serial (makeReceipt o e.voucher.serial unchecked c))
    (fun c => if canHold e inList c then hold owing inList c else c) c

/-- A final refusal (R35). -/
def refuseFinally (o : ReceiptOutcome) (e : PendingEntry) (inList : Bool) (who : Option Nat) (c : Controller) : Controller :=
  settleFinal o false e inList (answerWith who (answerOf o) (raise .voucherRefused c))

/-- The live record with a voucher's effect, its serial marked and the base advanced (R27, R31). -/
def applied (v : Voucher) (r : Record) : Record :=
  let r := match v.kind with
    | 1 => { r with energy := r.energy + v.amount }
    | 2 => { r with timeCredit := r.timeCredit + 3600 * v.amount }
    | 3 => { r with owned := true }
    | 4 => { r with energy := 0, timeCredit := 0, owned := false }
    | _ => r
  let w := markSerial r.base r.marks v.serial
  { r with base := w.1, marks := w.2 }

/-- Whether a voucher has room in the live record (R30, check 6). -/
def hasRoom (v : Voucher) (r : Record) : Bool :=
  match v.kind with
  | 1 => decide (r.energy + v.amount ≤ Config.energyMax)
  | 2 => decide (r.timeCredit + 3600 * v.amount ≤ Config.timeMax)
  | _ => true

/-- The application of a voucher as it comes to be in flight (R31). -/
def newFlight (unchecked : Bool) (v : Voucher) (who : Option Nat) : Flight :=
  { voucher := v, unchecked := unchecked, answerTo := who, verified := false }

/-- The staged commit: the staged record is formed and its commit requested (R31). -/
def stage (unchecked : Bool) (e : PendingEntry) (inList : Bool) (who : Option Nat) (c : Controller) : Controller :=
  let c := if inList then changeEntry e c else c
  requestStaged (stagedFormed { c with
    account := { c.account with
      staged := some (applied e.voucher c.account.live), flight := some (newFlight unchecked e.voucher who) } })

/-- The last two checks, use-by and room (R30). -/
def checkUseByAndRoom (e : PendingEntry) (inList : Bool) (who : Option Nat) (c : Controller) : Controller :=
  let v := e.voucher
  if c.clock.timeState = .set ∧ fullUseBy v.useBy < c.clock.day then refuseFinally .expired e inList who c
  else if !hasRoom v c.account.live then nonFinal .full (!decide (c.clock.timeState = .set)) e inList who c
  else stage (!decide (c.clock.timeState = .set)) e inList who c

/-- A voucher found DUPLICATE: no receipt; an entry leaves the list (R29). -/
def foundDuplicate (e : PendingEntry) (inList : Bool) (who : Option Nat) (c : Controller) : Controller :=
  answerWith who .duplicate (if inList then removeEntry e.voucher.serial c else c)

/-- The serial check (R29, check 4), with what R34 gives for an entry that carries the in-commit mark. Where that entry is
then DUPLICATE and was not examined before, R34 gives it no outcome answer and the model's choice is to send none
(notes/assumptions/34.md). -/
def checkSerial (e : PendingEntry) (inList : Bool) (who : Option Nat) (c : Controller) : Controller :=
  match classify c.account.live.base c.account.live.marks e.voucher.serial with
  | .duplicate =>
    if e.inCommit then settleFinal .applied (!decide (c.clock.timeState = .set)) e inList c
    else foundDuplicate e inList who c
  | .ahead =>
    if e.inCommit then checkUseByAndRoom { e with inCommit := false } inList who c
    else nonFinal .ahead false e inList who c
  | .eligible => checkUseByAndRoom { e with inCommit := false } inList who c

/-- The kit key of the commissioned station (R12). -/
def ownKey (c : Controller) : List Byte :=
  match c.params with
  | none => []
  | some p => p.key

/-- The checks that follow HELD's (R29, checks 2 to 4; R30). -/
def checkVoucher (e : PendingEntry) (inList : Bool) (who : Option Nat) (c : Controller) : Controller :=
  if !tagMatches (ownKey c) e.voucher then refuseFinally .badTag e inList who c
  else if !voucherWellFormed e.voucher then refuseFinally .badForm e inList who c
  else checkSerial e inList who c

/-- A voucher whose use-by day is reconstructed while the district day is known (R15). -/
def datedVoucher (v : Voucher) (c : Controller) : Voucher :=
  { v with useBy := useByNow c.clock.timeState c.clock.day v.useBy }

/-- An entry whose voucher's use-by day is reconstructed while the district day is known (R15). -/
def dated (e : PendingEntry) (c : Controller) : PendingEntry := { e with voucher := datedVoucher e.voucher c }

/-- The application checks in order (R29, R30), made on a voucher delivered or taken from the list. Its use-by day is
reconstructed before the checks that follow HELD's, since an entry examined while HELD stays unchanged (R15, R34;
notes/assumptions/34.md). -/
def examine (e : PendingEntry) (inList : Bool) (c : Controller) : Controller :=
  let who := e.answerTo
  let e := examined e
  let c := readAccount c
  if c.account.live.held then keepBack e inList who c
  else checkVoucher (dated e c) inList who c

/-! ### Re-examination (R37) -/

/-- A due pass starts, unless HELD is set or a DECOMMISSION is in progress (R22, R37). -/
def mayStartPass (c : Controller) : Bool := c.account.passDue && !c.account.live.held && accountListens c

/-- The re-examination passes that run until an application is in flight, or none is due; at most `n` steps (R37). -/
def runPasses : Nat → Controller → Controller
  | 0, c => c
  | n + 1, c =>
    if c.account.flight.isSome then c
    else match c.account.pass with
      | none =>
        if mayStartPass c then
          runPasses n { c with account := { c.account with pass := some [], passDue := false } }
        else c
      | some done =>
        let c := readPendingOwn c
        match nextToExamine done c.account.pendingOwn with
        | none => runPasses n { c with account := { c.account with pass := none } }
        | some e =>
          let c := examine e true { c with account := { c.account with pass := some (e.voucher.serial :: done) } }
          runPasses n (if c.account.flight.isSome then c else endExamination c)

/-- The passes that can follow one arrival: two passes of at most four entries each, with their starts and ends. -/
def runDue (c : Controller) : Controller := runPasses 16 c

/-! ### Delivery (R28) -/

/-- A delivered voucher as an entry with its marks clear (R36). -/
def freshEntry (v : Voucher) (who : Option Nat) : PendingEntry := ⟨v, false, false, false, none, who⟩

/-- Whether a delivered voucher is taken (R28), given the outcome answer of an examination at once. -/
inductive Delivered where
  | taken | notTaken
  deriving DecidableEq, Repr

/-- Whether an examination at once takes a delivered voucher: every end but a refusal by the list (R28, R29, R36). A final
refusal, a DUPLICATE and a staged commit count as taken. -/
def examinationTakes (v : Voucher) (c : Controller) : Bool :=
  let c := readAccount c
  let listed := listTakes v.serial c.account.pendingOwn
  let d := datedVoucher v c
  if c.account.live.held then listed
  else if !tagMatches (ownKey c) d || !voucherWellFormed d then true
  else match classify c.account.live.base c.account.live.marks v.serial with
    | .duplicate => true
    | .ahead => listed
    | .eligible =>
      decide (c.clock.timeState = .set ∧ fullUseBy d.useBy < c.clock.day) || hasRoom d c.account.live || listed

/-- Whether the Account Unit takes a delivered voucher (R28). -/
def deliveryTaken (v : Voucher) (c : Controller) : Bool :=
  if !accountListens c then false
  else
    let c := readPendingOwn c
    if (entryWith v.serial c.account.pendingOwn).isSome then true
    else if c.account.flight.isSome then listTakes v.serial c.account.pendingOwn
    else examinationTakes v c

/-- The effect of a delivered own voucher (R28); `who` is the keypad evaluation that awaits its outcome answer. -/
def deliver (v : Voucher) (who : Option Nat) (c : Controller) : Controller :=
  if !accountListens c then c
  else
    let c := readPendingOwn c
    if (entryWith v.serial c.account.pendingOwn).isSome then answerWith who .pending c
    else if c.account.flight.isSome then
      if listTakes v.serial c.account.pendingOwn then
        placeEntry { freshEntry v who with unexamined := true } c
      else answerWith who .notTaken c
    else
      let c := examine (freshEntry v who) false c
      runDue (if c.account.flight.isSome then c else endExamination c)

/-! ### Reports from the Meter and the clock (R25, R26, R46) -/

/-- The second event's rule on one record (R25). -/
def countDown (r : Record) : Record := { r with timeCredit := r.timeCredit - 1 }

/-- Whether a whole hour has been consumed by a decrement to this time credit (R25). -/
def wholeHour (r : Record) : Bool := decide (r.timeCredit % 3600 = 0)

/-- A second event at the Account Unit (R25). -/
def takeSecond (c : Controller) : Controller :=
  if !accountListens c then c
  else if !accountReads c then readAccount c
  else
    let c := readAccount c
    if deriveState (lowThreshold c) c.account.live = .timed then
      let c := derive (writeBoth countDown c)
      if wholeHour c.account.live then runDue (trigger (requestPeriodic c)) else c
    else c

/-- The charge rule on one record (R26, R81). -/
def charged (r : Record) : Record :=
  if 0 < r.energy then { r with energy := r.energy - 1 }
  else if 0 < r.lifeline then { r with lifeline := r.lifeline - 1 }
  else r

/-- Whether the charge rule lowers a field of a record (R26). -/
def chargeLowers (r : Record) : Bool := decide (0 < r.energy) || decide (0 < r.lifeline)

/-- The metered count raised by 1; at 5 a commit is requested (R26). -/
def countMetered (c : Controller) : Controller :=
  if c.account.metered < 5 then
    let c := { c with account := { c.account with metered := c.account.metered + 1 } }
    if c.account.metered = 5 then requestPeriodic c else c
  else c

/-- Whether a charge report lowers a field of the live or the staged record (R26; notes/assumptions/12.md). -/
def chargeCounts (c : Controller) : Bool :=
  chargeLowers c.account.live || (match c.account.staged with
    | none => false
    | some r => chargeLowers r)

/-- A charge report at the Account Unit (R26). A charge that lowers the energy of the staged record alone marks no
re-examination trigger, and one that is the fifth metered Wh too asks the Journal for its commit before the pass starts: both
are the model's choice (notes/assumptions/12.md). -/
def takeCharge (c : Controller) : Controller :=
  if !accountListens c then c
  else if !accountReads c then readAccount c
  else
    let c := readAccount c
    let lowersEnergy := decide (0 < c.account.live.energy)
    let counts := chargeCounts c
    let c := derive (writeBoth charged c)
    let c := if counts then countMetered c else c
    if lowersEnergy then runDue (trigger c) else c

/-- A lifetime report at the Account Unit (R26). -/
def takeLifetime (c : Controller) : Controller :=
  if !accountListens c then c
  else if !accountReads c then readAccount c
  else countMetered (writeBoth (fun r => { r with lifetime := min Config.count32Max (r.lifetime + 1) }) (readAccount c))

/-- A bypass report at the Account Unit (R26, R55). -/
def takeBypass (c : Controller) : Controller :=
  if !accountListens c then c
  else if !accountReads c then readAccount c
  else raise .bypass (writeBoth (fun r => { r with bypass := min 65535 (r.bypass + 1) }) (readAccount c))

/-- A good-sample report at the Account Unit (R43, R59). -/
def takeGoodSample (c : Controller) : Controller :=
  if accountListens c then unlatch .senseLost (unlatch .senseHold c) else c

/-- What a block tells about a condition, taken (R42, R43). -/
def takeNews (n : ConditionNews) (c : Controller) : Controller :=
  match n with
  | .raised x => raise x c
  | .bandNormal => unlatch .relaySuspended c

/-- A time state report at the Account Unit (R43, R93). -/
def takeTimeState (st : TimeState) (c : Controller) : Controller := if st = .set then unlatch .timeUnset c else c

/-- The lifeline refill of one record on a day (R78, R79). -/
def refilled (allow day : Nat) (r : Record) : Record := { r with lifeline := allow, lifelineDay := day }

/-- Whether a day calls for a periodic STATUS (R44). -/
def periodicStatusDue (day : Nat) (c : Controller) : Bool :=
  match c.params with
  | none => false
  | some p => decide (c.account.live.lastStatus + p.reportInterval ≤ day)

/-- A day rollover at the Account Unit, in the order of R46. A read that sets HELD leaves the operation uncompleted, and the
reload's catch-up makes the refill (R80, R176); while HELD stands the refill, which writes two fields and needs none of
them, is made although the record does not read, so that persistent HELD has it too (R79). The record is read once, before the
refill, and under HELD with a double error no STATUS is made or owed: the model's choice, R176 beside R79
(notes/assumptions/10.md). -/
def takeRollover (day : Nat) (c : Controller) : Controller :=
  if !accountListens c then c
  else if !accountReads c && !c.account.live.held then readAccount c
  else
    let reads := accountReads c
    let c := derive (writeBoth (refilled (allowance c) day) (readAccount c))
    let c := if reads && periodicStatusDue day c then dueStatus c else c
    runDue (trigger c)

/-! ### Reports from the Journal (R32 to R34) -/

/-- A report on a commit, arrived: one on an application that HELD has overtaken changes nothing more (R34, R168;
notes/assumptions/28.md). -/
def takeReport (i : Instr) (f : Controller → Controller) (c : Controller) : Controller :=
  let c := arrive i c
  if c.account.overtaken.contains i then
    { c with account := { c.account with overtaken := c.account.overtaken.erase i } }
  else f c

/-- Whether an application in flight awaits a report: not under HELD, nor while DECOMMISSION is in progress (R34, R168). -/
def flightAwaits (c : Controller) : Bool := accountListens c && !c.account.live.held && c.account.flight.isSome

/-- The staged record put live, or the record that is so already (R32; notes/assumptions/19.md). The rule orders only the
reserve before any receipt: that JOURNAL-FAULT leaves the condition set before the APPLIED receipt copies it is the model's
choice (notes/assumptions/29.md). Where the record is live already and the reserve stands, no field changes, and so nothing is
written and no armed fault is taken, the model's choice (R179; notes/assumptions/10.md). -/
def goLive (reserve : Nat) (c : Controller) : Controller :=
  let c := unlatch .journalFault c
  let r := { (match c.account.staged with
    | none => c.account.live
    | some r => r) with reserve := reserve }
  derive (writeLive (fun _ => r) (withoutStaged { c with account := { c.account with flight := none, metered := 0 } }))

/-- The entry an application's receipt is settled for: the one in the list, or a fresh one (R32). Where that entry is a second
copy of a delivered voucher, not yet examined, it carries the owed outcome, its unexamined mark is cleared and it is sent no
answer: the model's choice (notes/assumptions/30.md). -/
def flightEntry (f : Flight) (c : Controller) : PendingEntry :=
  match entryWith f.voucher.serial c.account.pendingOwn with
  | none => freshEntry f.voucher none
  | some e => { e with unexamined := false }

/-- The application completed: its record goes live, its receipt is made or owed, and what waited for a verified commit
follows (R32, R35, R45). -/
def completeFlight (f : Flight) (reserve : Nat) (c : Controller) : Controller :=
  let c := goLive reserve c
  let c := settleFinal .applied f.unchecked (flightEntry f c)
    ((entryWith f.voucher.serial c.account.pendingOwn).isSome) c
  runDue (trigger (settleOwed (answerWith f.answerTo .applied c)))

/-- A staged commit verified (R32): it puts the record live of an application in flight whose commit the Journal has
verified, and of no other (R34, R168). -/
def takeStagedVerified (reserve : Nat) (c : Controller) : Controller :=
  let c := readAccount c
  if !(flightAwaits c && flightVerified c) then c
  else
    let c := readPendingOwn c
    match c.account.flight with
    | none => c
    | some f => completeFlight f reserve c

/-- A periodic commit verified (R32, R166). R168 sends a report that arrives after HELD to R34, which speaks of a staged
commit alone: the model's choice is that this one changes nothing while HELD is set and has all its effects once HELD has
ended (notes/assumptions/38.md). -/
def takePeriodicVerified (reserve : Nat) (c : Controller) : Controller :=
  if accountListens c && !c.account.live.held then settleOwed (goodCommit reserve c) else c

/-- The staged record discarded and the voucher kept pending (R33). Where the list holds an equal key, that entry stays as
it is (R1). -/
def abandonFlight (c : Controller) : Controller :=
  match c.account.flight with
  | none => c
  | some f =>
    let c := readPendingOwn (withoutStaged { c with account := { c.account with flight := none } })
    match entryWith f.voucher.serial c.account.pendingOwn with
    | some _ => answerWith f.answerTo .pending c
    | none => keepBack (freshEntry f.voucher none) false f.answerTo c

/-- A staged commit inhibited (R33). -/
def takeInhibited (c : Controller) : Controller :=
  if flightAwaits c then runDue (endExamination (abandonFlight c)) else c

/-- A commit failed (R33, R167): JOURNAL-FAULT is raised, and a staged one is abandoned. A periodic one's report is dropped
while HELD is set and raises JOURNAL-FAULT once HELD has ended, the model's choice (notes/assumptions/38.md). -/
def takeFailed (kind : CommitKind) (c : Controller) : Controller :=
  if !accountListens c || c.account.live.held then c
  else match kind with
    | .periodic => raise .journalFault c
    | .staged =>
      if !flightAwaits c then c
      else
        let c := raise .journalFault c
        if flightAwaits c then runDue (endExamination (abandonFlight c)) else c

/-! ### The commands -/

/-- SECOND_EVENT_ACCOUNT (R25). -/
def execSecondEventAccount (s : State) : Host.Outcome State Fault Refusal :=
  onMain (fun c => takeSecond (arrive .secondEventAccount c)) s

/-- CHARGE_REPORT (R26). -/
def execChargeReport (s : State) : Host.Outcome State Fault Refusal :=
  onMain (fun c => takeCharge (arrive .chargeReport c)) s

/-- LIFETIME_REPORT (R26, R56). -/
def execLifetimeReport (s : State) : Host.Outcome State Fault Refusal :=
  onMain (fun c => takeLifetime (arrive .lifetimeReport c)) s

/-- BYPASS_REPORT (R26, R55). -/
def execBypassReport (s : State) : Host.Outcome State Fault Refusal :=
  onMain (fun c => takeBypass (arrive .bypassReport c)) s

/-- GOOD_SAMPLE_REPORT (R43, R59). -/
def execGoodSampleReport (s : State) : Host.Outcome State Fault Refusal :=
  onMain (fun c => takeGoodSample (arrive .goodSampleReport c)) s

/-- CONDITION_REPORT (R42). -/
def execConditionReport (news : ConditionNews) (s : State) : Host.Outcome State Fault Refusal :=
  onMain (fun c => takeNews news (arrive (.conditionReport news) c)) s

/-- TIME_STATE_REPORT (R93). -/
def execTimeStateReport (st : TimeState) (s : State) : Host.Outcome State Fault Refusal :=
  onMain (fun c => takeTimeState st (arrive (.timeStateReport st) c)) s

/-- DAY_ROLLOVER_ACCOUNT (R46). -/
def execDayRolloverAccount (day : Nat) (s : State) : Host.Outcome State Fault Refusal :=
  onMain (fun c => takeRollover day (arrive (.dayRolloverAccount day) c)) s

/-- STAGED_COMMIT_VERIFIED (R32). -/
def execStagedCommitVerified (reserve : Nat) (s : State) : Host.Outcome State Fault Refusal :=
  onMain (takeReport (.stagedCommitVerified reserve) (takeStagedVerified reserve)) s

/-- PERIODIC_COMMIT_VERIFIED (R166). -/
def execPeriodicCommitVerified (reserve : Nat) (s : State) : Host.Outcome State Fault Refusal :=
  onMain (fun c => takePeriodicVerified reserve (arrive (.periodicCommitVerified reserve) c)) s

/-- COMMIT_INHIBITED_REPORT (R33). -/
def execCommitInhibitedReport (s : State) : Host.Outcome State Fault Refusal :=
  onMain (takeReport .commitInhibitedReport takeInhibited) s

/-- COMMIT_FAILED_REPORT (R33, R167). -/
def execCommitFailedReport (kind : CommitKind) (s : State) : Host.Outcome State Fault Refusal :=
  onMain (takeReport (.commitFailedReport kind) (takeFailed kind)) s

end Sys2Proof.Machine
end

