-- ==== Sys2Proof/Machine/Channel.lean ====
section
/-! DEFINITION. The Channel Access Unit's shared operations (R155 to R158) and the receive state they move (R143, R144,
R147): slots, senses, backoff and the beginning of a transmission. -/

namespace Sys2Proof.Machine

/-! ### Channel-busy (R144) -/

/-- The enable output is on (R144). -/
def enableOn (c : Controller) : Bool := c.radio.active && (!decide (c.radio.rx = .doze) || c.radio.sampling)

/-- A reading of channel-busy: free while the enable output is off and while TRANSMITTING (R144). -/
def readBusy (c : Controller) : Bool := enableOn c && !decide (c.radio.rx = .transmitting) && c.power.channelBusy

/-- The level of the channel-busy input as a command finds it. -/
def setBusy (busy : Bool) (c : Controller) : Controller := { c with power := { c.power with channelBusy := busy } }

/-- A sense: busy when channel-busy is asserted or the receive state is RECEIVING (R156). -/
def senseBusy (c : Controller) : Bool := readBusy c || decide (c.radio.rx = .receiving)

/-! ### Slots (R155) -/

/-- A kind's place in the priority order, 0 the highest (R155). -/
def rank : FrameKind → Nat
  | .took => 0
  | .carry => 1
  | .ask => 2
  | .hail => 3

/-- A kind's slot. -/
def slotOf (k : FrameKind) (ch : Channel) : Option TxSlot :=
  match k with
  | .took => ch.took
  | .carry => ch.carry
  | .ask => ch.ask
  | .hail => ch.hail

/-- A kind's slot set. -/
def setSlot (k : FrameKind) (t : Option TxSlot) (ch : Channel) : Channel :=
  match k with
  | .took => { ch with took := t }
  | .carry => { ch with carry := t }
  | .ask => { ch with ask := t }
  | .hail => { ch with hail := t }

/-- Whether all four slots are empty. -/
def slotsEmpty (ch : Channel) : Bool := ch.took.isNone && ch.carry.isNone && ch.ask.isNone && ch.hail.isNone

/-- The occupied slot highest in the priority order (R156). -/
def chosenSlot (ch : Channel) : Option (FrameKind × TxSlot) :=
  match ch.took, ch.carry, ch.ask, ch.hail with
  | some t, _, _, _ => some (.took, t)
  | none, some t, _, _ => some (.carry, t)
  | none, none, some t, _ => some (.ask, t)
  | none, none, none, some t => some (.hail, t)
  | none, none, none, none => none

/-- The backoff timer after a frame of a kind is placed: stopped when it ran for the frame replaced or for a lower one
(R155, R158). -/
def backoffAfterPlacing (k : FrameKind) (b : Option (FrameKind × Nat)) : Option (FrameKind × Nat) :=
  match b with
  | none => none
  | some (j, n) => if rank k ≤ rank j then none else some (j, n)

/-- The backoff timer after a kind's frame leaves its slot (R158). -/
def backoffAfterLeaving (k : FrameKind) (b : Option (FrameKind × Nat)) : Option (FrameKind × Nat) :=
  match b with
  | none => none
  | some (j, n) => if j = k then none else some (j, n)

/-- A frame leaves its slot (R155, R158). -/
def leaveSlot (k : FrameKind) (ch : Channel) : Channel :=
  { setSlot k none ch with backoff := backoffAfterLeaving k ch.backoff }

/-- The listen hold in ms (R149). -/
def listenMs (c : Controller) : Nat :=
  match c.params with
  | none => 0
  | some p => p.listenHold * 100

/-- LISTEN entered from DOZE, which starts the listen hold timer (R147, R149). -/
def wake (c : Controller) : Controller :=
  if c.radio.rx = .doze then
    { c with radio := { c.radio with rx := .listen, hold := some (listenMs c), sampling := false } }
  else c

/-- A frame placed in its slot with a fresh attempt state (R155, R158). The choice that a placement calls for is made
at the end of the command (Exchange.lean). -/
def placeFrame (k : FrameKind) (f : SlotFrame) (deadline : Option Nat) (c : Controller) : Controller :=
  wake { c with channel := { setSlot k (some ⟨f, 0, 8, deadline⟩) c.channel with
    backoff := backoffAfterPlacing k c.channel.backoff } }

/-! ### Frames (R120, R126, R146) -/

/-- A frame header as the composer and the Radio Line Interface fill it (R120, R146). -/
def composeHeader (addressee exchange : Nat) (c : Controller) : FrameHeader :=
  { sender := ownKit c, addressee := addressee, day := c.clock.day, agent := isAgent c
    timeSet := decide (c.clock.timeState = .set), relaySuspended := c.exchange.suspended, exchange := exchange }

/-- A CARRY made final: its items are read from the store as they are held at this moment (R116, R126, R146). -/
def finalCarry (w : WaitingCarry) (c : Controller) : CarryFrame :=
  { header := composeHeader w.asker w.exchange c, burst := w.burst, last := w.last
    vouchers := w.keys.filterMap (carriedVoucher c), receipts := w.keys.filterMap (carriedReceipt c) }

/-- The frame a slot sends (R146). -/
def finalFrame (f : SlotFrame) (c : Controller) : AirFrame :=
  match f with
  | .final a => a
  | .waiting w => .carry (finalCarry w c)

/-- The read of the store that the beginning of a CARRY's transmission makes (R116, R126). -/
def readForFrame (f : SlotFrame) (c : Controller) : Controller :=
  match f with
  | .final _ => c
  | .waiting w => readForCarry w.keys c

/-- Transmission begins: the frame leaves its slot and the state becomes TRANSMITTING (R156). -/
def beginTransmission (k : FrameKind) (t : TxSlot) (c : Controller) : Controller :=
  let c := readForFrame t.frame c
  { c with channel := leaveSlot k c.channel
           radio := { c.radio with rx := .transmitting, onAir := some (finalFrame t.frame c) } }

/-- The commissioned wake interval W in ms (R145). -/
def wakeInterval (c : Controller) : Nat :=
  match c.params with
  | none => 0
  | some p => p.wake

/-- What TX data is driven with while TRANSMITTING (R151). -/
def transmitted (c : Controller) : Option Transmission := c.radio.onAir.map (transmissionOf (wakeInterval c))

/-- A busy sense that the frame survives: the backoff timer is started and the window doubles, up to 64 (R157). -/
def backOff (k : FrameKind) (t : TxSlot) (c : Controller) : Controller :=
  let n := drawn 1 t.window c
  afterDraw { c with channel := { setSlot k (some { t with senses := t.senses + 1, window := min 64 (2 * t.window) }) c.channel
    with backoff := some (k, n) } }

/-- The Channel Access Unit may choose: the transmitter is free and the backoff timer stopped (R156). -/
def mayChoose (c : Controller) : Bool :=
  c.radio.active && !decide (c.radio.rx = .transmitting) && c.channel.backoff.isNone

end Sys2Proof.Machine
end

