-- ==== Sys2Proof/Machine/Exchange.lean ====
section
/-! DEFINITION. The Exchange Engine (Chapter 7): the hailer and asker machines, overhearing, and the choices of the
Channel Access Unit that report back to them (R156 to R159). -/

namespace Sys2Proof.Machine

/-! ### The hailer (R121 to R129) -/

/-- The commissioned hail period in seconds. -/
def hailPeriod (c : Controller) : Nat :=
  match c.params with
  | none => 0
  | some p => p.hailPeriod

/-- The commissioned burst size B. -/
def burstSize (c : Controller) : Nat :=
  match c.params with
  | none => 1
  | some p => p.burst

/-- The HAIL composed from the state as it stands, under an exchange number (R122, R145). -/
def hailFrame (number : Nat) (c : Controller) : HailFrame :=
  { header := composeHeader 0 number c, day := c.clock.day, second := c.clock.second
    freeVouchers := emptyCount c.store.vouchers, freeReceipts := emptyCount c.store.receipts
    offers := (composeOffer c).1.map (fun o => ⟨airKeyOf o.1, o.2⟩) }

/-- The exchange number after another (R122). -/
def nextNumber (n : Nat) : Nat := (n + 1) % 256

/-- A HAIL composed and placed; the hailer enters HAILING and the offer cursor moves (R122). -/
def composeHail (c : Controller) : Controller :=
  let c := readTables c
  let f := hailFrame (nextNumber c.exchange.number) c
  placeFrame .hail (.final (.hail f)) none
    { c with
      store := { c.store with cursor := (composeOffer c).2 }
      exchange := { c.exchange with number := nextNumber c.exchange.number, hailer := .hailing, askQueue := [], service := none } }

/-- The hailer enters IDLE and examines hail deferred (R129). -/
def hailerIdle (c : Controller) : Controller :=
  let c := { c with exchange := { c.exchange with
    hailer := .idle, askQueue := [], service := none, tookWait := none, askWindow := none, windowExtended := false } }
  if c.exchange.deferred then
    let c := { c with exchange := { c.exchange with deferred := false } }
    if c.exchange.suspended then c else composeHail c
  else c

/-! ### The ask queue's memory (R131, R175) -/

/-- Units of the ask queue. -/
def inQueue : EntryUnit → Bool
  | .askEntry _ => true
  | _ => false

/-- Whether a double error stands in a word of an asker's entry. -/
def askerLost (bad : List BadWord) (asker : Nat) : Bool :=
  bad.any (fun w => decide (w.unit = .askEntry asker) && !isSingle w)

/-- The ask queue read through the Memory Check Unit, its bad entries dropped (R131, R175). -/
def readAsks (c : Controller) : Controller :=
  let bad := c.check.bad
  let c := readUnits inQueue c
  { c with exchange := { c.exchange with askQueue := c.exchange.askQueue.filter (fun e => !askerLost bad e.asker) } }

/-! ### Serving (R125 to R128) -/

/-- The bursts of a plan: `B` keys each, in order (R125); at most `n` of them. -/
def burstsOf (B : Nat) : Nat → List ItemKey → List (List ItemKey)
  | 0, _ => []
  | n + 1, keys => if keys.isEmpty then [] else keys.take B :: burstsOf B n (keys.drop B)

/-- The plan for an asker's keys: replaced by one empty burst when no key gives an item (R125). -/
def planFor (keys : List ItemKey) (c : Controller) : List (List ItemKey) :=
  if keys.any (givesItem c) then burstsOf (burstSize c) keys.length keys else [[]]

/-- The keys of the burst being served (R125). -/
def burstKeys (sv : Service) : List ItemKey := sv.plan.getD sv.burst []

/-- A burst placed in the CARRY slot; the hailer is SERVING (R126). -/
def placeBurst (sv : Service) (c : Controller) : Controller :=
  placeFrame .carry (.waiting ⟨sv.asker, c.exchange.number, sv.burst, decide (sv.burst + 1 = sv.plan.length), burstKeys sv⟩) none
    { c with exchange := { c.exchange with hailer := .serving, service := some sv, tookWait := none } }

/-- The service of an ask queue entry begun (R125). -/
def beginService (e : AskEntry) (c : Controller) : Controller :=
  let c := readForCarry e.keys c
  placeBurst { asker := e.asker, keyCount := e.keys.length, plan := planFor e.keys c, burst := 0, retry := 0, acked := 0 } c

/-- The first entry of the ask queue served, or the exchange ended when there is none (R125, R129); the read of the
queue drops an entry found bad (R131). -/
def serveFirst (c : Controller) : Controller :=
  let c := readAsks c
  match c.exchange.askQueue with
  | [] => hailerIdle c
  | e :: _ => beginService e c

/-- The service of the asker at the head of the queue ends, and the next is begun (R127, R128). -/
def serveNext (c : Controller) : Controller :=
  serveFirst { c with exchange := { c.exchange with askQueue := c.exchange.askQueue.drop 1, service := none, tookWait := none } }

/-- The abandonment tally raised by the residual of a service (R128). -/
def tallyResidual (sv : Service) (c : Controller) : Controller :=
  { c with exchange := { c.exchange with tally := min 65535 (c.exchange.tally + (sv.keyCount - sv.acked)) } }

/-- An attempt has failed: the burst is placed again, or at retry count 3 the asker is abandoned (R127, R128). -/
def failAttempt (c : Controller) : Controller :=
  match c.exchange.service with
  | none => c
  | some sv =>
    if sv.retry < 3 then placeBurst { sv with retry := sv.retry + 1 } c
    else serveNext (tallyResidual sv c)

/-- The service after a matching TOOK: the next burst of the plan, or the next asker (R127). -/
def acknowledged (sv : Service) (c : Controller) : Controller :=
  let sv := { sv with acked := sv.acked + (burstKeys sv).length, retry := 0 }
  if sv.burst + 1 < sv.plan.length then placeBurst { sv with burst := sv.burst + 1 } c
  else serveNext c

/-! ### The drop of a served entry (R131) -/

/-- Whether the CARRY slot holds a CARRY for an asker. -/
def carryWaits (asker : Nat) (c : Controller) : Bool :=
  match c.channel.carry with
  | none => false
  | some t =>
    match t.frame with
    | .waiting w => decide (w.asker = asker)
    | .final _ => false

/-- The service of a dropped entry ends at once as an abandonment; with its CARRY in the slot, the hailer stays in
SERVING until that CARRY has been reported (R131). By the model's choice of when the queue is read, no command drops the
served entry while its CARRY is in the slot (notes/assumptions/50.md). -/
def abandonDropped (sv : Service) (c : Controller) : Controller :=
  let c := tallyResidual sv { c with exchange := { c.exchange with service := none, tookWait := none } }
  if carryWaits sv.asker c then c else serveFirst c

/-- The ask queue read where the served entry may be among those dropped: its service then ends (R131, R175). -/
def readQueue (c : Controller) : Controller :=
  let d := readAsks c
  match d.exchange.service with
  | none => d
  | some sv => if askerLost c.check.bad sv.asker then abandonDropped sv d else d

/-! ### Reports to the owners of frames (R156, R157) -/

/-- A CARRY reported not sent: a failed attempt; for a dropped entry it is taken for no service (R127, R131). -/
def carryNotSent (c : Controller) : Controller :=
  if c.exchange.service.isNone then serveFirst c
  else
    let c := readQueue c
    if c.exchange.hailer = .serving ∧ c.channel.carry.isNone then failAttempt c else c

/-- The outstanding ask discarded and the asker IDLE; the kept TOOK stays (R133, R134, R137). -/
def discardAsk (c : Controller) : Controller :=
  { c with exchange := { c.exchange with asker := .idle, outstanding := none, askDelay := none, carryTimer := none } }

/-- A frame reported not sent to its owner (R157). -/
def notSent (k : FrameKind) (c : Controller) : Controller :=
  match k with
  | .took => c
  | .carry => carryNotSent c
  | .ask => discardAsk c
  | .hail => hailerIdle c

/-- An ASK reported sent (R133). -/
def askSent (c : Controller) : Controller :=
  { c with exchange := { c.exchange with
      keptTook := none, asker := .awaitCarry, carryTimer := some 20000
      outstanding := c.exchange.outstanding.map (fun o => { o with lastBurst := none }) } }

/-- A CARRY reported sent (R126); the report of a dropped entry's CARRY is taken for no service (R131). -/
def carrySent (f : CarryFrame) (c : Controller) : Controller :=
  match c.exchange.service with
  | none => if c.exchange.hailer = .serving then serveFirst c else c
  | some sv =>
    if sv.asker = f.header.addressee ∧ c.exchange.hailer = .serving then
      { c with exchange := { c.exchange with hailer := .awaitTook, tookWait := some 400 } }
    else c

/-- A HAIL reported sent: the ask window opens (R122, R124). -/
def hailSent (c : Controller) : Controller :=
  { c with exchange := { c.exchange with hailer := .askWindow, askWindow := some 1500, windowExtended := false } }

/-- A frame reported sent to its owner (R156). -/
def sent (f : AirFrame) (c : Controller) : Controller :=
  match f with
  | .hail _ => hailSent c
  | .ask _ => askSent c
  | .carry f => carrySent f c
  | .took _ => c

/-- The choices of the Channel Access Unit until it transmits, backs off or finds its slots empty; at most `n` of them
(R156, R157). -/
def chooseUpTo : Nat → Controller → Controller
  | 0, c => c
  | n + 1, c =>
    if !mayChoose c then c
    else match chosenSlot c.channel with
      | none => c
      | some (k, t) =>
        if senseBusy c then
          if 5 ≤ t.senses + 1 then chooseUpTo n (notSent k { c with channel := leaveSlot k c.channel })
          else backOff k t c
        else beginTransmission k t c

/-- The Channel Access Unit chooses. A frame placed in a slot emptied by a fifth busy sense has a fresh attempt state, so
that at most one choice per slot and one more follow one another. -/
def choose (c : Controller) : Controller := chooseUpTo 8 c

/-! ### The asker (R132 to R137) -/

/-- The candidates of a HAIL: own vouchers, receipts, foreign vouchers, each group in the HAIL's order (R132). -/
def candidates (c : Controller) (f : HailFrame) : List (ItemKey × Nat) :=
  let keys := f.offers.filterMap offeredOf
  let isOwn := fun (o : ItemKey × Nat) => decide (o.1.type = .voucher) && decide (o.1.kit = ownKit c)
  keys.filter isOwn ++ keys.filter (fun o => decide (o.1.type = .receipt))
    ++ keys.filter (fun o => decide (o.1.type = .voucher) && !isOwn o)

/-- The collections and, for an own voucher, the account read for admission tests of some keys (R101, R172). -/
def readForTests (keys : List ItemKey) (c : Controller) : Controller :=
  let c := readStore keys c
  if anyOwnVoucher c keys then readAccount c else c

/-- The ASK for some keys of a HAIL composed; the asker enters ASK-PENDING with a random delay (R132, R133). -/
def composeAsk (f : HailFrame) (keys : List ItemKey) (c : Controller) : Controller :=
  let ask : AskFrame :=
    { header := composeHeader f.header.sender f.header.exchange c, keys := keys.map airKeyOf }
  let delay := drawn 0 1200 c
  afterDraw { c with exchange := { c.exchange with
    asker := .askPending, askDelay := some delay
    outstanding := some { hailer := f.header.sender, exchange := f.header.exchange, keys := keys, composed := ask,
                          deadline := 1500, lastBurst := none } } }

/-- A HAIL at the asker machine (R132, R138). -/
def takeHail (f : HailFrame) (c : Controller) : Controller :=
  if c.exchange.asker ≠ .idle then c
  else
    let c := readForTests ((candidates c f).map Prod.fst) c
    let keys := (wanted c (reckoningOf c) (candidates c f)).take 6
    if keys.isEmpty then c else composeAsk f keys c

/-- An own voucher of a CARRY that the admission test wants, handed to the Account Unit (R28, R139). -/
def overhear (v : Voucher) (c : Controller) : Controller :=
  let c := readForTests [voucherKey v] c
  match admitOwn c (voucherKey v) with
  | .want _ => deliver { v with hop := takenHop v.hop } none c
  | .holds => c
  | .refuse => c

/-- A voucher item examined for an own voucher (R139). -/
def overhearItem (c : Controller) (i : VoucherItem) : Controller :=
  match voucherOfItem i with
  | none => c
  | some v => if v.target = ownKit c then overhear v c else c

/-- A CARRY examined for own vouchers (R139). -/
def overhearCarry (f : CarryFrame) (c : Controller) : Controller := f.vouchers.foldl overhearItem c

/-- An asked voucher with verdict WANT taken (R136): the state after, and whether it counts as taken. -/
def takeAskedVoucher (slot : Option Nat) (v : Voucher) (c : Controller) : Controller × Bool :=
  let v := { v with hop := takenHop v.hop }
  if v.target = ownKit c then (deliver v none c, deliveryTaken v c) else (takeVoucher slot v c, true)

/-- An asked item tested and taken (R136): `take` is what WANT does. The keys taken so far come and go with the state. -/
def takeAsked (k : ItemKey) (hop : Nat) (take : Option Nat → Controller → Controller × Bool)
    (a : Controller × List ItemKey) : Controller × List ItemKey :=
  if a.2.contains k then (a.1, a.2 ++ [k])
  else
    let c := readForTests [k] a.1
    match admissionTest c (reckoningOf c) k hop with
    | .want slot => ((take slot c).1, if (take slot c).2 then a.2 ++ [k] else a.2)
    | .holds => (c, a.2 ++ [k])
    | .refuse => (c, a.2)

/-- A voucher item of a CARRY in answer to the ASK (R135, R136). -/
def readVoucher (asked : List ItemKey) (a : Controller × List ItemKey) (i : VoucherItem) : Controller × List ItemKey :=
  match voucherOfItem i with
  | none => a
  | some v =>
    if asked.contains (voucherKey v) then
      takeAsked (voucherKey v) v.hop (fun slot c => takeAskedVoucher slot v c) a
    else (overhearItem a.1 i, a.2)

/-- A receipt item of a CARRY in answer to the ASK (R135, R136). -/
def readReceipt (asked : List ItemKey) (a : Controller × List ItemKey) (i : ReceiptItem) : Controller × List ItemKey :=
  match receiptOfItem i with
  | none => a
  | some r =>
    if asked.contains (receiptKey r) then
      takeAsked (receiptKey r) r.hop
        (fun slot c => (takeReceipt slot { r with hop := takenHop r.hop } c, true)) a
    else a

/-- The items of a CARRY in answer to the ASK, in the order they stand (R135, R136). -/
def readItems (asked : List ItemKey) (f : CarryFrame) (c : Controller) : Controller × List ItemKey :=
  f.receipts.foldl (readReceipt asked) (f.vouchers.foldl (readVoucher asked) (c, []))

/-- The TOOK that answers a CARRY with the keys taken (R136). -/
def tookFrame (f : CarryFrame) (keys : List ItemKey) (c : Controller) : TookFrame :=
  { header := composeHeader f.header.sender f.header.exchange c, burst := f.burst, keys := keys.map airKeyOf }

/-- A new burst read, taken and answered (R135 to R137). -/
def readCarry (o : Outstanding) (f : CarryFrame) (c : Controller) : Controller :=
  let r := readItems o.keys f c
  let took := tookFrame f r.2 r.1
  let c := placeFrame .took (.final (.took took)) none
    { r.1 with exchange := { r.1.exchange with keptTook := some took, outstanding := some { o with lastBurst := some f.burst } } }
  if f.last then discardAsk c else c

/-- The kept TOOK placed again (R137). -/
def repeatTook (c : Controller) : Controller :=
  match c.exchange.keptTook with
  | none => c
  | some t => placeFrame .took (.final (.took t)) none c

/-- Whether a CARRY equals the kept TOOK in sender, exchange number and burst index (R137). -/
def keptAnswers (f : CarryFrame) (c : Controller) : Bool :=
  match c.exchange.keptTook with
  | none => false
  | some t => decide (t.header.addressee = f.header.sender) && decide (t.header.exchange = f.header.exchange)
      && decide (t.burst = f.burst)

/-- A burst of the outstanding exchange addressed to this station compared with the last one answered (R137). -/
def compareBurst (o : Outstanding) (f : CarryFrame) (c : Controller) : Controller :=
  match o.lastBurst with
  | none => readCarry o f c
  | some b => if b < f.burst then readCarry o f c else if b = f.burst then repeatTook c else c

/-- The outstanding ask that a CARRY belongs to, while the asker is in AWAIT-CARRY (R134). -/
def outstandingOf (f : CarryFrame) (c : Controller) : Option Outstanding :=
  if c.exchange.asker = .awaitCarry then
    c.exchange.outstanding.filter (fun o => decide (o.hailer = f.header.sender) && decide (o.exchange = f.header.exchange))
  else none

/-- A CARRY at the Exchange Engine (R134 to R139). -/
def takeCarry (f : CarryFrame) (c : Controller) : Controller :=
  let here := decide (f.header.addressee = ownKit c)
  match outstandingOf f c with
  | some o =>
    let c := { c with exchange := { c.exchange with carryTimer := some 20000 } }
    if here then compareBurst o f c else overhearCarry f c
  | none =>
    if here && !decide (c.exchange.asker = .awaitCarry) && keptAnswers f c then repeatTook c else overhearCarry f c

/-! ### ASKs and TOOKs at the hailer (R123, R127, R130) -/

/-- The conditions 1 to 5 of R123 for an ASK to be queued. -/
def asksHere (f : AskFrame) (c : Controller) : Bool :=
  decide (f.header.addressee = ownKit c) && decide (f.header.exchange = c.exchange.number)
    && c.exchange.askQueue.all (fun e => !decide (e.asker = f.header.sender)) && !(validKeys f.keys).isEmpty
    && decide (c.exchange.askQueue.length < 4)

/-- An ASK at the hailer machine (R123). -/
def takeAsk (f : AskFrame) (c : Controller) : Controller :=
  if c.exchange.hailer ≠ .askWindow then c
  else
    let c := readQueue c
    if asksHere f c then
      storeWritten (.askEntry f.header.sender)
        { c with exchange := { c.exchange with askQueue := c.exchange.askQueue ++ [⟨f.header.sender, validKeys f.keys⟩] } }
    else c

/-- The valid receipt keys that a TOOK lists (R109). -/
def listedReceipts (f : TookFrame) : List ItemKey := (validKeys f.keys).filter (fun k => decide (k.type = .receipt))

/-- The receipt keys listed in an AGENT's TOOK retired, for which the receipt table is searched (R109, R130, R172). -/
def retireListed (f : TookFrame) (c : Controller) : Controller :=
  if f.header.agent && !(listedReceipts f).isEmpty then
    (listedReceipts f).foldl (fun c k => retireReceiptKey k c) (readReceipts c)
  else c

/-- The service that a TOOK matches (R127). -/
def matchedService (f : TookFrame) (c : Controller) : Option Service :=
  if c.exchange.hailer = .awaitTook then
    c.exchange.service.filter (fun sv =>
      decide (f.header.addressee = ownKit c) && decide (f.header.sender = sv.asker)
        && decide (f.header.exchange = c.exchange.number) && decide (f.burst = sv.burst))
  else none

/-- The ask queue read where the hailer reads its entry: while it awaits a TOOK (R131, R175). When the hailer reads its queue
during service is the model's choice: here, at a CARRY not sent, and where it goes on to the next entry, so that no command
drops the served entry while its CARRY waits in the slot (notes/assumptions/50.md). -/
def readServed (c : Controller) : Controller := if c.exchange.hailer = .awaitTook then readQueue c else c

/-- A TOOK at the Exchange Engine: an AGENT's retirement first, then the match (R127, R130). -/
def takeTook (f : TookFrame) (c : Controller) : Controller :=
  let c := readServed (retireListed f c)
  match matchedService f c with
  | none => c
  | some sv => acknowledged sv c

/-! ### Timers (R121, R124, R127, R133, R134, R159) -/

/-- The hail timer rearmed: the hail period times a random factor of 0.75 to 1.25 (R121). -/
def rearmHail (c : Controller) : Controller :=
  let ms := drawn (750 * hailPeriod c) (1250 * hailPeriod c) c
  afterDraw { c with exchange := { c.exchange with hailTimer := some ms } }

/-- The hail timer's expiry (R121). -/
def takeHailTimer (c : Controller) : Controller :=
  if c.exchange.hailTimer.isNone then c
  else
    let c := rearmHail c
    if c.exchange.suspended then c
    else if c.exchange.hailer = .idle then composeHail c
    else { c with exchange := { c.exchange with deferred := true } }

/-- The ask window's close: the queue's first entry is served, or the hailer enters IDLE (R124). -/
def closeWindow (c : Controller) : Controller :=
  serveFirst { c with exchange := { c.exchange with askWindow := none, windowExtended := false } }

/-- The ask window at its 1,500 ms, or at the end of its extension (R124). -/
def takeWindowClose (c : Controller) : Controller :=
  if c.exchange.hailer ≠ .askWindow then c
  else if !c.exchange.windowExtended && readBusy c then
    { c with exchange := { c.exchange with askWindow := some 2200, windowExtended := true } }
  else closeWindow c

/-- 400 ms without a matching TOOK (R127). -/
def takeTookWait (c : Controller) : Controller :=
  if c.exchange.tookWait.isNone then c
  else
    let c := readServed c
    if c.exchange.hailer = .awaitTook then failAttempt c else c

/-- The asker's random delay ends (R133). -/
def takeAskDelay (c : Controller) : Controller :=
  match c.exchange.askDelay, c.exchange.outstanding with
  | some _, some o =>
    placeFrame .ask (.final (.ask o.composed)) (some o.deadline) { c with exchange := { c.exchange with askDelay := none } }
  | _, _ => c

/-- The ASK's deadline while it is still in its slot (R159). -/
def takeAskDeadline (c : Controller) : Controller :=
  if c.channel.ask.isSome then discardAsk { c with channel := leaveSlot .ask c.channel } else c

/-- The carry timeout (R134). -/
def takeCarryTimeout (c : Controller) : Controller := if c.exchange.carryTimer.isSome then discardAsk c else c

/-- The end of a transmission (R151, R156). -/
def takeTransmissionEnd (c : Controller) : Controller :=
  match c.radio.onAir with
  | none => c
  | some f =>
    if c.radio.rx = .transmitting then
      sent f { c with radio := { c.radio with rx := .listen, onAir := none } }
    else c

/-- The backoff timer stopped by its expiry (R157). -/
def takeBackoff (c : Controller) : Controller := { c with channel := { c.channel with backoff := none } }

/-- A command of the exchange: frames and timers reach it only while the radio is active (R119), and the choices it calls
for are made at its end (R156). -/
def onAirwaves (busy : Bool) (f : Controller → Controller) (s : State) : Host.Outcome State Fault Refusal :=
  onMain (fun c => let c := setBusy busy c; if c.radio.active then choose (f c) else c) s

/-- A frame's copy in transit taken, whatever level of channel-busy it was handed on with. -/
def arriveCarry (f : CarryFrame) (c : Controller) : Controller :=
  { c with inTransit := c.inTransit.eraseP (fun i => match i with
    | .carryReceived g _ => decide (g = f)
    | _ => false) }

/-- As `arriveCarry`, for a TOOK. -/
def arriveTook (f : TookFrame) (c : Controller) : Controller :=
  { c with inTransit := c.inTransit.eraseP (fun i => match i with
    | .tookReceived g _ => decide (g = f)
    | _ => false) }

/-! ### The commands -/

/-- HAIL_TIMER_EXPIRY (R121, R122). -/
def execHailTimerExpiry (busy : Bool) (s : State) : Host.Outcome State Fault Refusal := onAirwaves busy takeHailTimer s

/-- BACKOFF_TIMER_EXPIRY (R157). -/
def execBackoffTimerExpiry (busy : Bool) (s : State) : Host.Outcome State Fault Refusal := onAirwaves busy takeBackoff s

/-- TRANSMISSION_END (R151, R156). -/
def execTransmissionEnd (busy : Bool) (s : State) : Host.Outcome State Fault Refusal := onAirwaves busy takeTransmissionEnd s

/-- ASK_DEADLINE (R159). -/
def execAskDeadline (busy : Bool) (s : State) : Host.Outcome State Fault Refusal := onAirwaves busy takeAskDeadline s

/-- ASK_WINDOW_CLOSE (R124). -/
def execAskWindowClose (busy : Bool) (s : State) : Host.Outcome State Fault Refusal := onAirwaves busy takeWindowClose s

/-- TOOK_WAIT_EXPIRY (R127). -/
def execTookWaitExpiry (busy : Bool) (s : State) : Host.Outcome State Fault Refusal := onAirwaves busy takeTookWait s

/-- ASK_DELAY_EXPIRY (R133). -/
def execAskDelayExpiry (busy : Bool) (s : State) : Host.Outcome State Fault Refusal := onAirwaves busy takeAskDelay s

/-- CARRY_TIMEOUT (R134). -/
def execCarryTimeout (s : State) : Host.Outcome State Fault Refusal := onMain takeCarryTimeout s

/-- HAIL_RECEIVED (R132, R138). -/
def execHailReceived (f : HailFrame) (s : State) : Host.Outcome State Fault Refusal :=
  onMain (fun c => let c := arrive (.hailReceived f) c; if c.radio.active then takeHail f c else c) s

/-- ASK_RECEIVED (R123). -/
def execAskReceived (f : AskFrame) (s : State) : Host.Outcome State Fault Refusal :=
  onMain (fun c => let c := arrive (.askReceived f) c; if c.radio.active then takeAsk f c else c) s

/-- CARRY_RECEIVED (R134 to R139). -/
def execCarryReceived (f : CarryFrame) (busy : Bool) (s : State) : Host.Outcome State Fault Refusal :=
  onAirwaves busy (takeCarry f) { s with ctl := if s.ctl.power.mainOn then arriveCarry f s.ctl else s.ctl }

/-- TOOK_RECEIVED (R127, R130). -/
def execTookReceived (f : TookFrame) (busy : Bool) (s : State) : Host.Outcome State Fault Refusal :=
  onAirwaves busy (takeTook f) { s with ctl := if s.ctl.power.mainOn then arriveTook f s.ctl else s.ctl }

end Sys2Proof.Machine
end

