-- ==== Sys2Proof/Machine/Starts.lean ====
section
/-! DEFINITION. The kinds of start (0.6) and the losses of power: what every block takes at COLD START, MAIN START,
COMMISSION and DECOMMISSION, by the tables of R21, R22, R48, R69, R82, R100, R119, R143, R155, R162, R173, R180 and R189. -/

namespace Sys2Proof.Machine

/-! ### COLD START and MAIN START -/

/-- The words of the collection log, which keep their check bits across a MAIN START (R172). -/
def logWords (bad : List BadWord) : List BadWord := bad.filter (fun w => inLog w.unit)

/-- The Memory Check Unit after a start (R173). -/
def Check.started (bad : List BadWord) : Check :=
  { store := RegionCheck.clear, account := RegionCheck.clear, armed := none, bad := logWords bad }

/-- The Journal after a start: with a good commissioning block the recovery scan begins (R161, R169). -/
def journalStarted (scan : Scan) (j : Journal) : Journal :=
  let j' := Journal.started j.pages j.block
  if (goodBlock j.block).isSome then { j' with writeState := .scanning, scan := some scan } else j'

/-- The main domain without power: all of its state is lost (R162). -/
def mainLost (c : Controller) : Controller :=
  { c with
    power := { c.power with mainOn := false }
    params := none
    decommissioning := false
    account := Account.blank
    meter := Meter.started .idle
    switch := Switch.started
    store := Store.emptied c.store.log
    exchange := Exchange.started none 0 0
    radio := Radio.started false 0
    channel := Channel.empty
    journal := Journal.started c.journal.pages c.journal.block
    check := Check.started c.check.bad
    keypad := Keypad.started c.keypad.evaluation
    service := ServiceLine.started
    inTransit := [] }

/-- The hail timer running to its first expiry, at a uniform random delay in (0, hail period] (R119). -/
def firstHail (p : Params) (c : Controller) : Controller :=
  let ms := drawn 1 (p.hailPeriod * 1000) c
  afterDraw { c with exchange := { c.exchange with hailTimer := some ms } }

/-- The main domain starts: the commissioning block is read, and with a good one the Meter samples, the radio is active,
the hail timer runs and the recovery scan begins (R21, R48, R119, R143, R169). Until the scan ends the record is the blank
one, the state UNCOMMISSIONED, and the Account Unit takes nothing: the model's choice (notes/assumptions/32.md). -/
def startMain (scan : Scan) (c : Controller) : Controller :=
  let c := mainLost c
  let c := { c with power := { c.power with mainOn := true }, params := goodBlock c.journal.block
                    journal := journalStarted scan c.journal }
  match c.params with
  | none => c
  | some p => firstHail p { c with meter := Meter.started .sampling, radio := Radio.started true 0 }

/-- COLD START: both domains begin from no power (R21, R82, R100). -/
def coldStart (c : Controller) : Controller :=
  startMain .cold { c with
    power := { c.power with alwaysOn := true }, clock := Clock.cold, store := Store.emptied []
    check := { c.check with bad := [] } }

/-- MAIN START: the absence counter is read, and set to 0 when the scan's end has deducted it, or at once where no scan is
made (R21, R94; notes/assumptions/14.md). After a loss of the always-on supply the next start is a COLD START (R82). -/
def mainStart (c : Controller) : Controller :=
  if c.power.alwaysOn then
    let d := startMain (.main c.clock.absence) c
    if d.params.isNone then resetAbsence d else d
  else coldStart c

/-- The loss of the always-on supply, which comes about only while the main domain is off (R82). -/
def alwaysOnLost (c : Controller) : Controller :=
  if c.power.mainOn then c
  else { c with power := { c.power with alwaysOn := false }, clock := Clock.cold, store := Store.emptied []
                check := { c.check with bad := [] } }

/-! ### COMMISSION -/

/-- The record of COMMISSION (R22). -/
def newRecord (p : Params) (c : Controller) : Record :=
  let day := if timeKnown c then c.clock.day else 0
  { commissioned := true, owned := false, energy := 0, timeCredit := 0, lifeline := p.allowance, lifelineDay := day, base := 0
    marks := 0, counter := some 1, reserve := 16, lifetime := 0, bypass := 0, lastStatus := day, held := false }

/-- TIME-UNSET as the starts and COMMISSION raise it: while the time state is not SET (R21, R22). When a start does so is the
model's choice (notes/assumptions/48.md). -/
def startConditions (c : Controller) : List Condition := if c.clock.timeState = .set then [] else [.timeUnset]

/-- The first page's commit: page 0, sequence 1, reserve 16, both remainders 0 (R170, step 5). -/
def firstCommit (r : Record) (c : Controller) : Commit :=
  { kind := .periodic, attempt := .first, target := 0, image := { imageOf r 16 1 c with chargeRem := 0, lifetimeRem := 0 }
    overtaken := false }

/-- The Exchange Engine at COMMISSION and DECOMMISSION: the exchange number is kept (R119). -/
def exchangeReset (tally : Nat) (e : Exchange) : Exchange := Exchange.started none e.number tally

/-- COMMISSION takes effect: every block takes its COMMISSION values and the first page is begun (R22, R48, R69, R100,
R119, R143, R155, R170, R180). The record's words are written afresh, and an armed fault is kept for the next change of
the record (R173; notes/assumptions/13.md). Bad words of the STORE region outlive the emptying of their collections, the model's
choice (R172; notes/assumptions/47.md). -/
def commissionEffect (p : Params) (c : Controller) : Controller :=
  let r := newRecord p c
  let c := { c with
    params := some p
    account := { Account.blank with live := r, conditions := startConditions c, overtaken := c.inTransit.filter ofStagedCommit }
    meter := Meter.started .sampling
    switch := Switch.started
    store := Store.emptied []
    exchange := exchangeReset c.exchange.tally c.exchange
    radio := Radio.started true c.radio.discards
    channel := Channel.empty
    keypad := Keypad.started c.keypad.evaluation }
  let c := firstHail p (clearAccount c)
  let j := { Journal.started c.journal.pages c.journal.block with commissioning := some (p, .firstPage) }
  derive { c with journal := writePage (firstCommit r c) j }

/-! ### DECOMMISSION -/

/-- DECOMMISSION comes into progress (R22, R48, R73, R119, R143, R155, R171, R180, R198). That a flash in progress ends with it
is the model's choice (R180, R187; notes/assumptions/51.md). -/
def decommissionBegins (c : Controller) : Controller :=
  let c := { c with
    decommissioning := true
    meter := { c.meter with mode := .idle, request := false }
    switch := { c.switch with state := .opened, timer := none, overRun := 0 }
    exchange := exchangeReset 0 c.exchange
    radio := Radio.started false c.radio.discards
    channel := Channel.empty
    keypad := { Keypad.started c.keypad.evaluation with known := c.keypad.known }
    journal := { c.journal with periodicPending := false, stagedWaiting := false, awaitingSafe := false, reloadOwed := false } }
  if c.journal.slot.isSome then c else startErasure c

/-- The erasure is complete: every block takes its DECOMMISSION values, and the station is UNCOMMISSIONED (R22, R48, R69,
R100, R119, R143, R162, R173, R180, R198). No bad word of either region outlives it, the model's choice
(R172; notes/assumptions/47.md). -/
def decommissionEffect (c : Controller) : Controller :=
  derive { c with
    params := none
    decommissioning := false
    account := { Account.blank with state := c.account.state, overtaken := c.inTransit.filter ofStagedCommit }
    meter := { Meter.started .idle with known := c.meter.known }
    switch := { Switch.started with known := c.switch.known }
    store := Store.emptied []
    exchange := exchangeReset 0 c.exchange
    radio := Radio.started false c.radio.discards
    channel := Channel.empty
    journal := Journal.started (List.replicate 16 .erased) .erased
    check := { store := RegionCheck.clear, account := RegionCheck.clear, armed := none, bad := [] }
    keypad := { Keypad.started c.keypad.evaluation with known := c.keypad.known } }

/-! ### The commands -/

/-- COLD_START (R21). -/
def execColdStart (s : State) : Host.Outcome State Fault Refusal := onPart coldStart s

/-- MAIN_START (R21). -/
def execMainStart (s : State) : Host.Outcome State Fault Refusal := onPart (fun c => mainStart (arrive .mainStart c)) s

/-- MAIN_POWER_LOSS (R162). -/
def execMainPowerLoss (s : State) : Host.Outcome State Fault Refusal := onPart mainLost s

/-- ALWAYS_ON_SUPPLY_LOSS (R82). -/
def execAlwaysOnSupplyLoss (s : State) : Host.Outcome State Fault Refusal := onPart alwaysOnLost s

end Sys2Proof.Machine
end

