-- ==== Sys2Proof/Machine/JournalCommands.lean ====
section
/-! DEFINITION. The Journal's commands (Chapter 9): requests, the supply inputs, write and verify, and the scans. -/

namespace Sys2Proof.Machine

/-! ### Write and verify (R166, R167, R170) -/

/-- Programming complete: the store holds what it was given, or, where it did not take it, a page or block whose CRC
fails (R166, R170). -/
def takeProgrammed (intact : Bool) (c : Controller) : Controller :=
  if c.journal.writeState ≠ .writing then c
  else match c.journal.commissioning, c.journal.slot with
    | some (p, .block a), _ =>
      { c with journal := { c.journal with
          block := if intact then blockOf p else .torn, writeState := .verifying, commissioning := some (p, .block a) } }
    | _, some cm =>
      { c with journal := { c.journal with
          pages := c.journal.pages.set cm.target (if intact then pageOf cm.image else .torn), writeState := .verifying } }
    | _, none => c

/-- The commissioning procedure when a page's write ends: its first page's end ends it (R170). -/
def afterFirstPage (s : Option (Params × CommissionStage)) : Option (Params × CommissionStage) :=
  match s with
  | some (p, .firstPage) => some (p, .ended true)
  | s => s

/-- The report of a verified commit (R166). -/
def verifiedReport (cm : Commit) : Instr :=
  match cm.kind with
  | .staged => .stagedCommitVerified cm.image.reserve
  | .periodic => .periodicCommitVerified cm.image.reserve

/-- A commit's report handed on; that of an application which HELD has overtaken is known as such (R34, R168;
notes/assumptions/28.md). -/
def reportCommit (cm : Commit) (i : Instr) (c : Controller) : Controller :=
  emit i (if cm.overtaken then { c with account := { c.account with overtaken := c.account.overtaken ++ [i] } } else c)

/-- The application a verified staged commit is of, if it is still in flight, is marked verified (notes/assumptions/28.md). -/
def markVerified (cm : Commit) (c : Controller) : Controller :=
  { c with account := { c.account with flight := c.account.flight.map (fun f =>
      if cm.kind = .staged ∧ cm.overtaken = false then { f with verified := true } else f) } }

/-- A commit verified (R166): its two reports are handed on. While DECOMMISSION is in progress neither is (R168): that the report
to the clock is among those which change nothing, so that the absence counter runs on (R94), is the model's choice
(notes/assumptions/46.md). -/
def commitVerified (cm : Commit) (c : Controller) : Controller :=
  let c := markVerified cm { c with journal := { c.journal with
    newestPage := cm.target, newestSeq := cm.image.sequence, slot := none, writeState := .idle
    commissioning := afterFirstPage c.journal.commissioning } }
  writeEnded (if c.decommissioning then c else emit .absenceReset (reportCommit cm (verifiedReport cm) c))

/-- A commit failed on its retry (R167). -/
def commitFailed (cm : Commit) (c : Controller) : Controller :=
  let c := { c with journal := { c.journal with
    slot := none, writeState := .idle, commissioning := afterFirstPage c.journal.commissioning } }
  writeEnded (if c.decommissioning then c else reportCommit cm (.commitFailedReport cm.kind) c)

/-- A page read back (R166). -/
def verifyPage (readTrue : Bool) (cm : Commit) (c : Controller) : Controller :=
  if readTrue ∧ c.journal.pages.getD cm.target .erased = pageOf cm.image then commitVerified cm c
  else
    let c := { c with journal := { c.journal with pages := c.journal.pages.set cm.target .erased } }
    match cm.attempt with
    | .first => { c with journal := writePage { cm with attempt := .retry, target := (cm.target + 1) % 16 } c.journal }
    | .retry => commitFailed cm c

/-- The commissioning block read back (R170, step 3). -/
def verifyBlock (readTrue : Bool) (p : Params) (a : Attempt) (c : Controller) : Controller :=
  if readTrue ∧ c.journal.block = blockOf p then commissionEffect p c
  else match a with
    | .first => { c with journal := { c.journal with
        block := .torn, writeState := .writing, commissioning := some (p, .block .retry) } }
    | .retry => { c with journal := { c.journal with
        block := .erased, writeState := .idle, commissioning := some (p, .ended false) } }

/-- The read-back completes (R166, R167, R170). -/
def takeVerified (readTrue : Bool) (c : Controller) : Controller :=
  if c.journal.writeState ≠ .verifying then c
  else match c.journal.commissioning, c.journal.slot with
    | some (p, .block a), _ => verifyBlock readTrue p a c
    | _, some cm => verifyPage readTrue cm c
    | _, none => c

/-! ### The scans (R21, R24, R80, R169) -/

/-- The account record formed from a page; the counter is set equal to the reserve (R21, R24). -/
def recordOf (i : Image) : Record :=
  { commissioned := i.commissioned, owned := i.owned, energy := i.energy, timeCredit := i.timeCredit, lifeline := i.lifeline
    lifelineDay := i.lifelineDay, base := i.base, marks := i.marks, counter := some i.reserve, reserve := i.reserve
    lifetime := i.lifetime, bypass := i.bypass, lastStatus := i.lastStatus, held := false }

/-- The record after the start's deduction of time credit, stopping at 0 (R21). -/
def deducted (n : Nat) (r : Record) : Record := { r with timeCredit := r.timeCredit - n }

/-- The catch-up refill (R80). -/
def caughtUp (c : Controller) (r : Record) : Record :=
  if timeKnown c ∧ r.lifelineDay < c.clock.day then { r with lifeline := allowance c, lifelineDay := c.clock.day } else r

/-- The record of outcome 3 of R21: persistent HELD. The rule names every field but the ownership flag, and that the flag is
clear is the model's choice (notes/assumptions/42.md). -/
def heldRecord : Record := { Record.blank with commissioned := true, held := true, counter := none }

/-- The scan ended: the newest page and sequence known (R169). -/
def scanEnded (page seq : Nat) (c : Controller) : Controller :=
  { c with journal := { c.journal with newestPage := page, newestSeq := seq, writeState := .idle, scan := none } }

/-- A start's scan that found a valid page (R21, outcome 2; R65). The page's remainders take the place of what samples judged
during the scan have added, the model's choice (notes/assumptions/32.md). So is that the condition set is given here, by the time
state as it now stands, and not when the start began, so that a condition latched during the scan is lost (48.md). -/
def recovered (deduct page : Nat) (i : Image) (c : Controller) : Controller :=
  let r := caughtUp c (deducted deduct (recordOf i))
  let c := scanEnded page i.sequence c
  requestIfReserveReached (derive (accountRewritten { c with
    account := { c.account with live := r, staged := none, conditions := startConditions c }
    meter := { c.meter with chargeRem := i.chargeRem, lifetimeRem := i.lifetimeRem } }))

/-- A start's scan that found none (R21, outcome 3): the Meter's remainders are 0 (R169), whatever samples judged during the
scan have added (notes/assumptions/32.md). The condition set is given here too, the model's choice (48.md). -/
def notRecovered (c : Controller) : Controller :=
  let c := scanEnded 15 0 c
  derive (accountRewritten { c with
    account := { c.account with live := heldRecord, staged := none, conditions := setWith .held (startConditions c) }
    meter := { c.meter with chargeRem := 0, lifetimeRem := 0 } })

/-- The seconds of time credit a start's scan deducts: 3,600 at COLD START, the absence counter as MAIN START read it; none
for a reload (R21, R94). -/
def scanDeducts : Scan → Option Nat
  | .cold => some 3600
  | .main absence => some absence
  | .reload => none

/-- The absence counter after a start's scan: set to 0 at a MAIN START, whether or not a page was recovered (R94). That the
seconds counted since the start read it are wiped with it, neither deducted nor kept, is the model's choice
(notes/assumptions/14.md). -/
def absenceTaken (scan : Scan) (c : Controller) : Controller :=
  match scan with
  | .cold => c
  | .main _ => resetAbsence c
  | .reload => c

/-- The start scan ends (R169). -/
def takeRecovered (c : Controller) : Controller :=
  match c.journal.scan, c.params with
  | some scan, some p =>
    match scanDeducts scan with
    | none => c
    | some deduct =>
      match newestValid p 0 c.journal.pages with
      | some (page, i) => recovered deduct page i (absenceTaken scan c)
      | none => notRecovered (absenceTaken scan c)
  | _, _ => c

/-- A reload that found a valid page: it replaces the live record and ends HELD (R24). The commit that the reached reserve calls
for (R40) is asked for before the pass starts: the model's choice (notes/assumptions/12.md). -/
def reloaded (page : Nat) (i : Image) (c : Controller) : Controller :=
  let r := caughtUp c (recordOf i)
  let c := unlatch .held (scanEnded page i.sequence c)
  let c := requestIfReserveReached (derive (accountRewritten { c with account := { c.account with live := r, staged := none } }))
  runDue (trigger (releaseStatus c))

/-- A reload that found none: persistent HELD, the counter UNKNOWN (R24). Whether the other fields become 0 as in outcome 3
of R21 is left open: the model's choice is to keep them (notes/assumptions/31.md). -/
def notReloaded (c : Controller) : Controller := writeLive (fun r => { r with counter := none }) (scanEnded 15 0 c)

/-- The reload scan ends (R24, R169). -/
def takeReloaded (c : Controller) : Controller :=
  match c.journal.scan, c.params with
  | some .reload, some p =>
    match newestValid p 0 c.journal.pages with
    | some (page, i) => reloaded page i c
    | none => notReloaded c
  | _, _ => c

/-! ### The supply inputs (R163, R164, R171) -/

/-- The level of the WRITE-SAFE input. -/
def setWriteSafe (high : Bool) (c : Controller) : Controller := { c with power := { c.power with writeSafe := high } }

/-- What the Journal begins when WRITE-SAFE rises (R164, R171). -/
def afterRise (c : Controller) : Controller :=
  if c.journal.erasureWaits then beginErasure c
  else if c.journal.awaitingSafe then
    attemptIfFree { c with journal := { c.journal with awaitingSafe := false } }
  else c

/-! ### The commands -/

/-- POWER_FAIL_WARNING (R163). -/
def execPowerFailWarning (s : State) : Host.Outcome State Fault Refusal := onMain requestPeriodic s

/-- WRITE_SAFE_RISE (R164, R171). -/
def execWriteSafeRise (s : State) : Host.Outcome State Fault Refusal :=
  onPart (fun c => if c.power.mainOn then afterRise (setWriteSafe true c) else setWriteSafe true c) s

/-- WRITE_SAFE_FALL (R168): the level alone changes. That an erasure that has begun goes on is the model's choice
(R171; notes/assumptions/49.md). -/
def execWriteSafeFall (s : State) : Host.Outcome State Fault Refusal := onPart (setWriteSafe false) s

/-- DAY_ROLLOVER_JOURNAL (R163). -/
def execDayRolloverJournal (day : Nat) (s : State) : Host.Outcome State Fault Refusal :=
  onMain (fun c => requestPeriodic (arrive (.dayRolloverJournal day) c)) s

/-- PAGE_PROGRAM_DONE (R166, R170). -/
def execPageProgramDone (intact : Bool) (s : State) : Host.Outcome State Fault Refusal := onMain (takeProgrammed intact) s

/-- VERIFY_DONE (R166, R167, R170). -/
def execVerifyDone (readTrue : Bool) (s : State) : Host.Outcome State Fault Refusal := onMain (takeVerified readTrue) s

/-- RECOVERY_SCAN_COMPLETE (R21, R169). -/
def execRecoveryScanComplete (s : State) : Host.Outcome State Fault Refusal := onMain takeRecovered s

/-- RELOAD_SCAN_COMPLETE (R24, R169). -/
def execReloadScanComplete (s : State) : Host.Outcome State Fault Refusal := onMain takeReloaded s

end Sys2Proof.Machine
end

