-- ==== Sys2Proof/Machine/Keypad.lean ====
section
/-! DEFINITION. The Keypad and Indicator Unit (Chapter 11): key sequences, evaluation, showing and the LED patterns. -/

namespace Sys2Proof.Machine

/-! ### Showing (R184) -/

/-- Blinks of one colour (R184). -/
def blinks (colour : Colour) (n : Nat) : BlinkGroup := ⟨colour, n⟩

/-- The group of acceptance (R184). -/
def acceptance : List BlinkGroup := [blinks .green 2]

/-- The group of a refusal code (R184). -/
def refusal (code : Nat) : List BlinkGroup := [blinks .red code]

/-- The decimal digits of a number, most significant first, 0 as one digit; at most `n` of them (R184). -/
def digitsOf : Nat → Nat → List Nat
  | 0, _ => []
  | n + 1, v => if v < 10 then [v] else digitsOf n (v / 10) ++ [v % 10]

/-- The group of a digit, 0 as ten blinks (R184). -/
def digitGroup (d : Nat) : BlinkGroup := blinks .amber (if d = 0 then 10 else d)

/-- The groups of a number (R184). -/
def numberGroups (v : Nat) : List BlinkGroup := (digitsOf 10 v).map digitGroup

/-- A result shown: SHOWING is entered, the LEDs first dark (R184). -/
def showGroups (q : List BlinkGroup) (c : Controller) : Controller :=
  { c with keypad := { c.keypad with
      entry := .showing, display := q, phase := some .lead, answerWait := false, interKey := false, flash := false } }

/-- What an outcome answer shows (R183). -/
def answerGroups : Answer → List BlinkGroup
  | .applied => acceptance
  | .badForm => refusal 1
  | .duplicate => refusal 2
  | .badTag => refusal 3
  | .expired => refusal 4
  | .pending => refusal 5
  | .notTaken => refusal 6

/-- What the Relay Store's answer shows (R117, R183). -/
def entryGroups : EntryAnswer → List BlinkGroup
  | .taken => acceptance
  | .alreadyHeld => acceptance
  | .retired => refusal 2
  | .noRoom => refusal 6

/-! ### Sequences (R182, R185) -/

/-- A query of the account record: shown, or refused with code 6 when the read finds a double error (R176, R185). -/
def queryRecord (value : Record → Nat) (c : Controller) : Controller :=
  if accountReads c then
    let c := readAccount c
    showGroups (numberGroups (value c.account.live)) c
  else showGroups (refusal 6) (readAccount c)

/-- A decoded own voucher delivered to the Account Unit (R183). An answer NOT-TAKEN at hand-over is shown at once. -/
def handOverOwn (v : Voucher) (c : Controller) : Controller :=
  let n := c.keypad.evaluation + 1
  let taken := deliveryTaken v c
  let c := deliver v (some n) c
  if taken then { c with keypad := { c.keypad with entry := .evaluating, answerWait := true, evaluation := n } }
  else showGroups (refusal 6) { c with keypad := { c.keypad with evaluation := n } }

/-- A decoded foreign voucher handed to the Relay Store, which answers at once (R117, R183). -/
def handOverForeign (v : Voucher) (c : Controller) : Controller :=
  let c := readForEntry c
  showGroups (entryGroups (entryAnswer c v)) (enterVoucher v c)

/-- A decoded code shown or handed over (R182, R183). -/
def takeCode (t : TypedCode) (c : Controller) : Controller :=
  match t with
  | .refused code => showGroups (refusal code) c
  | .own v => handOverOwn v c
  | .foreign v => handOverForeign v c

/-- A completed sequence read from the state and the digits (R182). -/
def readSequence (st : EntryState) (ds : List (Fin 10)) (c : Controller) : Controller :=
  match st, ds with
  | .entry, [] => showGroups (numberGroups (highestCode c.account.conditions)) c
  | .entry, [d] =>
    if d = 0 then queryRecord (fun r => r.energy) c
    else if d = 1 then queryRecord (fun r => r.timeCredit / 86400) c
    else if d = 2 then showGroups (numberGroups (ownKit c)) c
    else showGroups (refusal 1) c
  | .entry, ds =>
    if ds.length = 21 then takeCode (decodeOwnCode (ownKit c) c.clock.timeState c.clock.day ds) c
    else showGroups (refusal 1) c
  | .foreignCode, ds =>
    if ds.length = 29 then takeCode (decodeForeignCode (ownKit c) c.clock.timeState c.clock.day ds) c
    else showGroups (refusal 1) c
  | _, _ => showGroups (refusal 1) c

/-- The sequence complete at `#` (R182). -/
def sequenceComplete (c : Controller) : Controller :=
  let st := c.keypad.entry
  let ds := c.keypad.buffer
  let c := { c with keypad := { c.keypad with buffer := [], interKey := false } }
  if c.account.state = .uncommissioned ∨ c.decommissioning = true then showGroups (refusal 6) c
  else readSequence st ds c

/-! ### Keys (R181) -/

/-- The keypad in a collecting state with a buffer, its inter-key timer restarted (R181). -/
def collecting (st : EntryState) (ds : List (Fin 10)) (c : Controller) : Controller :=
  { c with keypad := { c.keypad with entry := st, buffer := ds, interKey := true } }

/-- The buffer with a digit appended; a digit beyond 30 is not stored (R181). -/
def appended (d : Fin 10) (ds : List (Fin 10)) : List (Fin 10) := if ds.length < 30 then ds ++ [d] else ds

/-- A key press (R181). -/
def takeKey (k : Key) (c : Controller) : Controller :=
  match c.keypad.entry, k with
  | .idle, .star => collecting .entry [] c
  | .idle, .digit _ => c
  | .idle, .hash => c
  | .entry, .digit d => collecting .entry (appended d c.keypad.buffer) c
  | .entry, .star => collecting (if c.keypad.buffer.isEmpty then .foreignTarget else .entry) [] c
  | .entry, .hash => sequenceComplete c
  | .foreignTarget, .digit d =>
    collecting (if c.keypad.buffer.length = 7 then .foreignCode else .foreignTarget) (appended d c.keypad.buffer) c
  | .foreignTarget, .star => collecting .entry [] c
  | .foreignTarget, .hash => sequenceComplete c
  | .foreignCode, .digit d => collecting .foreignCode (appended d c.keypad.buffer) c
  | .foreignCode, .star => collecting .entry [] c
  | .foreignCode, .hash => sequenceComplete c
  | .evaluating, _ => c
  | .showing, _ => c

/-- 30 s without a key (R181). -/
def takeInterKey (c : Controller) : Controller :=
  if c.keypad.interKey then { c with keypad := { c.keypad with entry := .idle, buffer := [], interKey := false } } else c

/-! ### Answers (R183) -/

/-- Whether the unit still waits for an outcome answer (R183). -/
def awaitsAnswer (c : Controller) : Bool := decide (c.keypad.entry = .evaluating) && c.keypad.answerWait

/-- An outcome answer: shown while its evaluation waits for it, discarded otherwise (R183). -/
def takeAnswer (n : Nat) (a : Answer) (c : Controller) : Controller :=
  if awaitsAnswer c ∧ c.keypad.evaluation = n then showGroups (answerGroups a) c else c

/-- The answer wait expires: refusal code 5 (R183). -/
def takeAnswerExpiry (c : Controller) : Controller := if awaitsAnswer c then showGroups (refusal 5) c else c

/-! ### The display timer (R184, R187) -/

/-- The phase at the beginning of the display queue's first group, or the end of the showing (R184). -/
def beginGroup (k : Keypad) : Keypad :=
  match k.display with
  | [] => { k with entry := .idle, phase := none }
  | g :: _ => { k with phase := some (.lit g.blinks) }

/-- The first group has been shown (R184). -/
def groupShown (k : Keypad) : Keypad :=
  match k.display.drop 1 with
  | [] => { k with entry := .idle, display := [], phase := none }
  | rest => { k with display := rest, phase := some .gap }

/-- The showing one phase on (R184): a blink lit with `n` blinks left of its group, itself included, is followed by its
dark, and the last dark of a group by the gap before the next. -/
def showingStep (k : Keypad) : Keypad :=
  match k.phase with
  | none => beginGroup k
  | some .lead => beginGroup k
  | some .gap => beginGroup k
  | some (.lit n) => { k with phase := some (.dark (n - 1)) }
  | some (.dark 0) => groupShown k
  | some (.dark (n + 1)) => { k with phase := some (.lit (n + 1)) }

/-- The display timer: the showing advances, or the 200 ms flash ends (R184, R187). -/
def takeDisplay (c : Controller) : Controller :=
  if c.keypad.entry = .showing then { c with keypad := showingStep c.keypad }
  else { c with keypad := { c.keypad with flash := false } }

/-- The flash timer's expiry (R187). -/
def takeFlash (c : Controller) : Controller :=
  if c.keypad.entry = .showing then c
  else { c with keypad := { c.keypad with flash := decide (9 ≤ highestCode c.account.conditions) } }

/-! ### The LEDs (R184, R186, R187) -/

/-- What the indicator shows. -/
inductive Light where
  | dark
  | lit (colour : Colour)
  | steady (colour : Colour)
  | slowBlink (colour : Colour)
  | fastBlink (colour : Colour)
  deriving DecidableEq, Repr

/-- The steady pattern of an account state (R186). -/
def steadyPattern : AccountState → Light
  | .owned => .steady .green
  | .timed => .steady .green
  | .credited => .slowBlink .green
  | .low => .steady .amber
  | .lifeline => .slowBlink .amber
  | .locked => .steady .red
  | .held => .fastBlink .red
  | .uncommissioned => .fastBlink .amber

/-- Whether a pattern is a red one, in which a flash holds the red LED dark (R187). -/
def isRed : Light → Bool
  | .steady .red => true
  | .fastBlink .red => true
  | _ => false

/-- The indicator's output: the display queue while SHOWING, else the steady pattern with whether the red LED is held
otherwise than the pattern by a flash: lit beside it, or dark (R184, R186, R187). Without power in the main domain the LEDs
are dark, and a flash in progress when a new state changes between a red and another pattern turns at once from lit to dark
or back: both are the model's choice (notes/assumptions/39.md and 41.md). -/
def indicator (c : Controller) : Light × Option Light :=
  if !c.power.mainOn then (.dark, none)
  else if c.keypad.entry = .showing then
    match c.keypad.phase, c.keypad.display with
    | some (.lit _), g :: _ => (.lit g.colour, none)
    | _, _ => (.dark, none)
  else
    let p := steadyPattern c.keypad.known
    (p, if c.keypad.flash then some (if isRed p then .dark else .lit .red) else none)

/-! ### The commands -/

/-- KEY_PRESS (R181, R182). -/
def execKeyPress (k : Key) (s : State) : Host.Outcome State Fault Refusal := onMain (takeKey k) s

/-- INTER_KEY_TIMEOUT (R181). -/
def execInterKeyTimeout (s : State) : Host.Outcome State Fault Refusal := onMain takeInterKey s

/-- OUTCOME_ANSWER (R183). -/
def execOutcomeAnswer (n : Nat) (a : Answer) (s : State) : Host.Outcome State Fault Refusal :=
  onMain (fun c => takeAnswer n a (arrive (.outcomeAnswer n a) c)) s

/-- ANSWER_WAIT_EXPIRY (R183). -/
def execAnswerWaitExpiry (s : State) : Host.Outcome State Fault Refusal := onMain takeAnswerExpiry s

/-- DISPLAY_TIMER (R184, R187). -/
def execDisplayTimer (s : State) : Host.Outcome State Fault Refusal := onMain takeDisplay s

/-- FLASH_TIMER_EXPIRY (R187). -/
def execFlashTimerExpiry (s : State) : Host.Outcome State Fault Refusal := onMain takeFlash s

end Sys2Proof.Machine
end

