-- ==== Sys2Proof/Machine/Switch.lean ====
section
/-! DEFINITION. The Switch Controller (Chapter 4): following the account state, the lifeline cap and the trip hold. -/

namespace Sys2Proof.Machine

/-- The gate output holds the load switch closed: only while the main domain is powered and the switch CLOSED (R70). -/
def gateClosed (c : Controller) : Bool := c.power.mainOn && decide (c.switch.state = .closed)

/-- The switch state that an account state calls for (R71). -/
def switchFor (st : AccountState) : SwitchState := if allowedState st then .closed else .opened

/-- The over-cap run after a new account state: 0 on leaving LIFELINE and on a cancelled hold (R71, R72). -/
def runAfter (sw : Switch) (st : AccountState) : Nat :=
  if sw.state = .tripHold ∨ (sw.known = .lifeline ∧ st ≠ .lifeline) then 0 else sw.overRun

/-- A new account state at the Switch Controller (R71 to R73). A state already known is no change; a station that is
UNCOMMISSIONED or has a DECOMMISSION in progress holds the switch OPEN. -/
def takeAccountState (st : AccountState) (c : Controller) : Controller :=
  if st = c.switch.known then c
  else if !accountListens c then
    { c with switch := { state := .opened, timer := none, overRun := 0, known := st } }
  else
    { c with switch := { state := switchFor st, timer := none, overRun := runAfter c.switch st, known := st } }

/-- The switch trips (R75). -/
def trip (c : Controller) : Controller :=
  report .tripped { c with switch := { c.switch with state := .tripHold, timer := some 60, overRun := 0 } }

/-- Whether a cap verdict is taken (R73, R74). -/
def takesVerdict (c : Controller) : Bool :=
  decide (c.switch.state = .closed) && decide (c.switch.known = .lifeline) && !c.decommissioning

/-- A cap verdict at the Switch Controller (R74, R75). -/
def takeVerdict (v : CapVerdict) (c : Controller) : Controller :=
  if !takesVerdict c then c
  else match v with
    | .within => { c with switch := { c.switch with overRun := 0 } }
    | .over =>
      if 3 ≤ c.switch.overRun + 1 then trip c
      else { c with switch := { c.switch with overRun := c.switch.overRun + 1 } }

/-- The hold ends: the switch is set from the account state last made known (R76). -/
def endHold (c : Controller) : Controller :=
  { c with switch := { c.switch with state := switchFor c.switch.known, timer := none } }

/-- A second event at the Switch Controller (R76). -/
def takeSwitchSecond (c : Controller) : Controller :=
  match c.switch.state, c.switch.timer with
  | .tripHold, some (n + 1) => { c with switch := { c.switch with timer := some n } }
  | .tripHold, some 0 => endHold c
  | .tripHold, none => endHold c
  | .opened, _ => c
  | .closed, _ => c

/-- The second event that finds a trip hold's timer at 0 (R76). In any other case no hold ends. -/
def takeHoldEnd (c : Controller) : Controller :=
  match c.switch.state, c.switch.timer with
  | .tripHold, some 0 => endHold (arrive .secondEventSwitch c)
  | _, _ => c

/-- The second events in transit that end a trip hold taken before a sample is judged (R76): those that lower the timer to 0,
the one that finds it there, and any after it, which find no hold. Where they are too few to end the hold, they stay in transit
(notes/assumptions/25.md). -/
def takeHoldSeconds (c : Controller) : Controller :=
  if c.switch.state = .tripHold ∧ c.switch.timer.getD 0 < c.inTransit.count .secondEventSwitch then
    endHold { c with inTransit := c.inTransit.filter (fun i => !decide (i = .secondEventSwitch)) }
  else c

/-- SECOND_EVENT_SWITCH (R76). -/
def execSecondEventSwitch (s : State) : Host.Outcome State Fault Refusal :=
  onMain (fun c => takeSwitchSecond (arrive .secondEventSwitch c)) s

/-- TRIP_HOLD_END (R76). -/
def execTripHoldEnd (s : State) : Host.Outcome State Fault Refusal := onMain takeHoldEnd s

/-- CAP_VERDICT (R74, R75). -/
def execCapVerdict (v : CapVerdict) (s : State) : Host.Outcome State Fault Refusal :=
  onMain (fun c => takeVerdict v (arrive (.capVerdict v) c)) s

/-- ACCOUNT_STATE_TO_SWITCH (R71 to R73). -/
def execAccountStateToSwitch (st : AccountState) (s : State) : Host.Outcome State Fault Refusal :=
  onMain (fun c => takeAccountState st (arrive (.accountStateToSwitch st) c)) s

end Sys2Proof.Machine
end

