-- ==== Sys2Proof/Machine/Meter.lean ====
section
/-! DEFINITION. The Meter (Chapter 3): the sense line, the stages of a sample, missed samples and the supply band. -/

namespace Sys2Proof.Machine

/-- The classes of a sample state (R52). -/
inductive LoadClass where
  | forbidden | free | charging
  deriving DecidableEq, Repr

/-- The class of a sample state: the Forbidden class takes precedence (R52). -/
def loadClass (st : AccountState) (sw : SwitchState) : LoadClass :=
  match sw, st with
  | .opened, _ => .forbidden
  | .tripHold, _ => .forbidden
  | .closed, .owned => .free
  | .closed, .timed => .free
  | .closed, .credited => .charging
  | .closed, .low => .charging
  | .closed, .lifeline => .charging
  | .closed, .locked => .forbidden
  | .closed, .held => .forbidden
  | .closed, .uncommissioned => .forbidden

/-- The sample state's class as it stands when a sample is judged (R52). -/
def sampleClass (c : Controller) : LoadClass := loadClass c.meter.known c.switch.state

/-- The lifeline cap in energy units (R58). -/
def capUnits (c : Controller) : Nat :=
  match c.params with
  | none => 0
  | some p => p.cap * Config.wattUnits

/-- The fallback rate in energy units (R62). -/
def fallbackUnits (c : Controller) : Nat :=
  match c.params with
  | none => 0
  | some p => p.fallback * Config.wattUnits

/-- The relay cutoff in voltage counts (R66). -/
def relayCutoff (c : Controller) : Nat :=
  match c.params with
  | none => 0
  | some p => p.relayCutoff

/-- The current count after the dead-band (R54). -/
def deadBand (i : Nat) : Nat := if i ≤ 4 then 0 else i

/-- The lifetime stage (R56). -/
def lifetimeStage (product : Nat) (c : Controller) : Controller :=
  if Config.quantum ≤ c.meter.lifetimeRem + product then
    emit .lifetimeReport
      { c with meter := { c.meter with lifetimeRem := c.meter.lifetimeRem + product - Config.quantum } }
  else { c with meter := { c.meter with lifetimeRem := c.meter.lifetimeRem + product } }

/-- The charging stage (R55, R57). -/
def chargeStage (cls : LoadClass) (product : Nat) (c : Controller) : Controller :=
  match cls with
  | .forbidden => c
  | .free => c
  | .charging =>
    if Config.quantum ≤ c.meter.chargeRem + product then
      emit .chargeReport
        { c with meter := { c.meter with chargeRem := c.meter.chargeRem + product - Config.quantum } }
    else { c with meter := { c.meter with chargeRem := c.meter.chargeRem + product } }

/-- Whether a sample state calls for a cap verdict (R58). -/
def verdictDue (st : AccountState) (sw : SwitchState) : Bool := decide (st = .lifeline) && decide (sw = .closed)

/-- The verdict on a product (R58). -/
def verdictOn (product : Nat) (c : Controller) : CapVerdict := if capUnits c < product then .over else .within

/-- The cap stage (R58); `due` says whether the sample state calls for a verdict. -/
def capStage (due : Bool) (product : Nat) (c : Controller) : Controller :=
  if due then emit (.capVerdict (verdictOn product c)) c else c

/-- The relay-suspended flag as the Meter tells it to the Exchange Engine (R67, R68). -/
def tellSuspended (b : Bool) (c : Controller) : Controller := { c with exchange := { c.exchange with suspended := b } }

/-- The low run after a voltage count while the band is NORMAL (R66, R67). -/
def bandNormal (v : Nat) (c : Controller) : Controller :=
  if v < relayCutoff c then
    if 60 ≤ c.meter.lowRun + 1 then
      report .relaySuspended (tellSuspended true { c with meter := { c.meter with band := .low, lowRun := 0 } })
    else { c with meter := { c.meter with lowRun := c.meter.lowRun + 1 } }
  else { c with meter := { c.meter with lowRun := 0 } }

/-- The recovery run after a voltage count while the band is LOW (R66, R68). -/
def bandLow (v : Nat) (c : Controller) : Controller :=
  if relayCutoff c + 50 ≤ v then
    if 60 ≤ c.meter.recoveryRun + 1 then
      emit (.conditionReport .bandNormal)
        (tellSuspended false { c with meter := { c.meter with band := .normal, recoveryRun := 0 } })
    else { c with meter := { c.meter with recoveryRun := c.meter.recoveryRun + 1 } }
  else { c with meter := { c.meter with recoveryRun := 0 } }

/-- The supply band judged on a good sample's voltage count (R66). -/
def bandStage (v : Nat) (c : Controller) : Controller :=
  match c.meter.band with
  | .normal => bandNormal v c
  | .low => bandLow v c

/-- The close of a good sample (R59). -/
def closeStage (product v : Nat) (c : Controller) : Controller :=
  bandStage v (emit .goodSampleReport { c with meter := { c.meter with lastGood := product, misses := 0 } })

/-- Saturation and the forbidden-load test of a good sample (R53, R55). -/
def openStages (i v : Nat) (c : Controller) : Controller :=
  let c := if i = 4095 ∨ v = 4095 then report .overrange c else c
  if sampleClass c = .forbidden ∧ 0 < deadBand i then emit .bypassReport c else c

/-- The energy stages that every sample passes: lifetime, charging and cap (R56 to R58), all by the sample state as it
stood when the sample was judged (R52). -/
def energyStages (product : Nat) (c : Controller) : Controller :=
  let cls := sampleClass c
  let due := verdictDue c.meter.known c.switch.state
  capStage due product (chargeStage cls product (lifetimeStage product c))

/-- A good sample worked through its eight stages (R53 to R60). -/
def workGood (i v : Nat) (c : Controller) : Controller :=
  closeStage (deadBand i * v) v (energyStages (deadBand i * v) (openStages i v c))

/-- The product of a missed sample with its miss count after the rise (R61, R62). -/
def missedProduct (misses : Nat) (c : Controller) : Nat :=
  if misses ≤ 10 then c.meter.lastGood
  else if c.switch.state = .closed then fallbackUnits c
  else 0

/-- A missed sample worked, held or fallback (R60 to R62). -/
def workMissed (c : Controller) : Controller :=
  let misses := min 11 (c.meter.misses + 1)
  let c := { c with meter := { c.meter with misses := misses } }
  energyStages (missedProduct misses c) (report (if misses ≤ 10 then .senseHold else .senseLost) c)

/-- The check byte of a reply (R50). -/
def senseCheck (b1 b2 b3 : Byte) : Nat := 255 - (b1.toNat + b2.toNat + b3.toNat) % 256

/-- The current count of a reply: the upper 12 of its 24 bits (R50). -/
def currentCount (b1 b2 : Byte) : Nat := b1.toNat * 16 + b2.toNat / 16

/-- The voltage count of a reply: the lower 12 of its 24 bits (R50). -/
def voltageCount (b2 b3 : Byte) : Nat := b2.toNat % 16 * 256 + b3.toNat

/-- The request in flight is judged: it is in flight no longer (R50), and a second event in transit that ends a trip hold has
been taken before, so that the sample sees the switch as that event leaves it (R76; notes/assumptions/25.md). -/
def requestJudged (c : Controller) : Controller := takeHoldSeconds { c with meter := { c.meter with request := false } }

/-- A complete reply taken (R50): without a request in flight its bytes are discarded. -/
def takeReply (b1 b2 b3 b4 : Byte) (c : Controller) : Controller :=
  if !c.meter.request then c
  else if b4.toNat = senseCheck b1 b2 b3 then workGood (currentCount b1 b2) (voltageCount b2 b3) (requestJudged c)
  else workMissed (requestJudged c)

/-- The end of the reply window (R50). -/
def takeWindowEnd (c : Controller) : Controller := if c.meter.request then workMissed (requestJudged c) else c

/-- The byte of a sample request (R49). -/
def requestByte : Byte := 0x53#8

/-- What the Meter has sent on the sense line for the request in flight (R49). -/
def senseOut (c : Controller) : Option Byte := if c.meter.request then some requestByte else none

/-- A second event at the Meter: while SAMPLING a request is sent (R49, R51). -/
def takeMeterSecond (c : Controller) : Controller :=
  match c.meter.mode with
  | .idle => c
  | .sampling =>
    let c := takeWindowEnd c
    { c with meter := { c.meter with request := true } }

/-- SECOND_EVENT_METER (R49, R51). -/
def execSecondEventMeter (s : State) : Host.Outcome State Fault Refusal :=
  onMain (fun c => takeMeterSecond (arrive .secondEventMeter c)) s

/-- SAMPLE_REPLY (R50, R52 to R63). -/
def execSampleReply (b1 b2 b3 b4 : Byte) (s : State) : Host.Outcome State Fault Refusal :=
  onMain (takeReply b1 b2 b3 b4) s

/-- REPLY_WINDOW_EXPIRY (R50, R61, R62). -/
def execReplyWindowExpiry (s : State) : Host.Outcome State Fault Refusal := onMain takeWindowEnd s

/-- STRAY_SENSE_BYTE (R50): the byte is discarded. -/
def execStraySenseByte (_ : Byte) (s : State) : Host.Outcome State Fault Refusal := onMain id s

end Sys2Proof.Machine
end

