-- ==== Sys2Proof/Machine/Radio.lean ====
section
/-! DEFINITION. The Radio Line Interface's commands (R147 to R153): the duty cycle, reception, checks and delivery. -/

namespace Sys2Proof.Machine

/-- A discard counted (R152, R154). -/
def countDiscard (c : Controller) : Controller :=
  { c with radio := { c.radio with discards := min 65535 (c.radio.discards + 1) } }

/-- The reception ends and the state returns to LISTEN (R150). -/
def endReception (c : Controller) : Controller := { c with radio := { c.radio with rx := .listen, reception := none } }

/-- A channel sample begins (R148). -/
def takeDozeSample (busy : Bool) (c : Controller) : Controller :=
  if c.radio.active ∧ c.radio.rx = .doze then
    let c := { c with radio := { c.radio with sampling := true } }
    if busy then wake c else c
  else c

/-- A channel sample ends without channel-busy (R148). -/
def takeDozeEnd (c : Controller) : Controller := { c with radio := { c.radio with sampling := false } }

/-- The start mark found (R149). -/
def takeStartMark (c : Controller) : Controller :=
  if c.radio.active ∧ c.radio.rx = .listen then
    { c with radio := { c.radio with rx := .receiving, reception := some [] } }
  else c

/-- A reception cut short: the frame is discarded and counted (R150). -/
def cutReception (c : Controller) : Controller :=
  if c.radio.rx = .receiving then countDiscard (endReception c) else c

/-- The listen hold timer restarted when the addressee is this station or all stations (R149, R153). -/
def restartHold (addressee : Nat) (c : Controller) : Controller :=
  if addressee = ownKit c ∨ addressee = 0 then { c with radio := { c.radio with hold := some (listenMs c) } } else c

/-- A good frame handed on: to the Exchange Engine, and a HAIL also to the District Clock (R153). -/
def deliverFrame (f : AirFrame) (c : Controller) : Controller :=
  match f with
  | .hail f =>
    emit (.hailTimeArrival f.header.sender f.header.agent f.header.timeSet f.day f.second) (emit (.hailReceived f) c)
  | .ask f => emit (.askReceived f) c
  | .carry f => emit (.carryReceived f c.power.channelBusy) c
  | .took f => emit (.tookReceived f c.power.channelBusy) c

/-- A frame received whole, checked and delivered or discarded (R152, R153). -/
def frameReceived (bytes : List Byte) (c : Controller) : Controller :=
  match judgeFrame (ownKit c) bytes with
  | .discarded counted => if counted then countDiscard c else c
  | .good f => deliverFrame f (restartHold (frameHeader f).2.addressee c)

/-- The bytes of the frame in reception with those that have followed (R150). -/
def collected (bytes : List Byte) (c : Controller) : List Byte := c.radio.reception.getD [] ++ bytes

/-- The frame in reception judged by its bytes so far (R150): the length class in its second header byte discards it or
gives its length, and with that many bytes it is complete. -/
def takeFrame (bytes : List Byte) (c : Controller) : Controller :=
  if c.radio.active ∧ c.radio.rx = .receiving then
    let got := collected bytes c
    if 2 ≤ got.length ∧ 3 < fieldAt got 1 1 then countDiscard (endReception c)
    else if got.length < 2 ∨ got.length < frameLength (fieldAt got 1 1) then
      { c with radio := { c.radio with reception := some got } }
    else frameReceived (got.take (frameLength (fieldAt got 1 1))) (endReception c)
  else c

/-- Whether the station may doze: both machines IDLE and all four slots empty (R149). -/
def mayDoze (c : Controller) : Bool :=
  decide (c.radio.rx = .listen) && decide (c.exchange.hailer = .idle) && decide (c.exchange.asker = .idle)
    && slotsEmpty c.channel

/-- The listen hold's expiry (R149). -/
def takeHoldExpiry (c : Controller) : Controller :=
  if c.radio.hold.isNone then c
  else if mayDoze c then { c with radio := { c.radio with rx := .doze, hold := none } }
  else { c with radio := { c.radio with hold := some (listenMs c) } }

/-- DOZE_SAMPLE (R148). -/
def execDozeSample (busy : Bool) (s : State) : Host.Outcome State Fault Refusal :=
  onMain (fun c => takeDozeSample busy (setBusy busy c)) s

/-- DOZE_SAMPLE_END (R148). -/
def execDozeSampleEnd (s : State) : Host.Outcome State Fault Refusal := onMain takeDozeEnd s

/-- START_MARK_FOUND (R149). -/
def execStartMarkFound (s : State) : Host.Outcome State Fault Refusal := onMain takeStartMark s

/-- HEADER_CLASS_INVALID (R150). -/
def execHeaderClassInvalid (s : State) : Host.Outcome State Fault Refusal := onMain cutReception s

/-- FRAME_TRUNCATED (R150): channel-busy has gone free. -/
def execFrameTruncated (s : State) : Host.Outcome State Fault Refusal := onMain (fun c => cutReception (setBusy false c)) s

/-- FRAME_COMPLETE (R150, R152, R153). -/
def execFrameComplete (bytes : List Byte) (s : State) : Host.Outcome State Fault Refusal := onMain (takeFrame bytes) s

/-- LISTEN_HOLD_EXPIRY (R149). -/
def execListenHoldExpiry (s : State) : Host.Outcome State Fault Refusal := onMain takeHoldExpiry s

end Sys2Proof.Machine
end

