-- ==== Sys2Proof/Machine/ServiceLine.lean ====
section
/-! DEFINITION. The Service Line (Chapter 12): its receive states, the handling of a command, the nine commands and
their responses. -/

namespace Sys2Proof.Machine

/-! ### Responses (R190) -/

/-- A response formed; the last byte of a final one ends the command in progress (R190). -/
def respondPart (code : Nat) (status : Status) (body : List Byte) (final : Bool) (c : Controller) : Controller :=
  { c with service := { c.service with responses := c.service.responses ++ [⟨code, status, body, final⟩] } }

/-- The final response of a command. -/
def respond (code : Nat) (status : Status) (body : List Byte) (c : Controller) : Controller :=
  respondPart code status body true c

/-- The bytes of a response frame on the line (R188). The status is counted in the length. -/
def responseBytes (r : Response) : List Byte :=
  serviceStart :: withCrc (bytesOf 1 r.code ++ bytesOf 1 (r.body.length + 1) ++ bytesOf 1 (statusCode r.status) ++ r.body)

/-- The line returned to HUNT, the frame in reception gone (R189). -/
def toHunt (c : Controller) : Controller := { c with service := { c.service with line := .hunt, frame := [] } }

/-- A frame taken (R190): with a command in progress it is answered BUSY, else its command is in progress and `go` follows. -/
def frameTaken (code : Nat) (go : Controller → Controller) (c : Controller) : Controller :=
  if c.service.inProgress.isSome then respondPart code .busy [] false c
  else go { c with service := { c.service with inProgress := some code } }

/-- A command carried out. One that the line has collected from its bytes is in progress since its frame was taken, and one
that comes as a whole frame is taken here and leaves the line in HUNT (R189, R190; notes/assumptions/22.md). -/
def takeCommand (i : Instr) (code : Nat) (f : Controller → Controller) (c : Controller) : Controller :=
  if c.inTransit.contains i then f (arrive i { c with service := { c.service with inProgress := some code } })
  else frameTaken code f (toHunt c)

/-- A check of R190: where it fails, the command is answered with its status and does nothing. -/
def check (ok : Bool) (code : Nat) (status : Status) (f : Controller → Controller) (c : Controller) : Controller :=
  if ok then f c else respond code status [] c

/-- The station is commissioned: it holds a good commissioning block's values (R161). -/
def isCommissioned (c : Controller) : Bool := c.params.isSome

/-! ### IDENTIFY and STATUS (R191, R193) -/

/-- A role's code, 0 for none (R191). -/
def roleCode (c : Controller) : Nat :=
  match c.params with
  | none => 0
  | some p => match p.role with
    | .ordinary => 1
    | .agent => 2

/-- The body of IDENTIFY's response (R191). -/
def identifyBody (c : Controller) : List Byte :=
  bytesOf 4 (ownKit c) ++ bytesOf 1 (roleCode c) ++ bytesOf 1 (if isCommissioned c then 1 else 0)
    ++ bytesOf 1 (timeCode c.clock.timeState) ++ bytesOf 1 1

/-- A capture's three bytes: its kind and address (R193). That the address bytes of an empty capture are 0 is the model's choice
(notes/assumptions/43.md). -/
def captureBytes (k : Option Capture) : List Byte :=
  match k with
  | none => bytesOf 3 0
  | some k => bytesOf 1 (match k.kind with
      | .single => 1
      | .double => 2) ++ bytesOf 2 k.address

/-- The number of entries of a table (R193). -/
def occupied {α : Type} (l : List (Option α)) : Nat := (l.filter Option.isSome).length

/-- The number of LOCAL entries of the voucher table (R193). -/
def localCount (c : Controller) : Nat :=
  (c.store.vouchers.filter (fun e => match e with
    | none => false
    | some e => e.isLocal)).length

/-- The number of own entries of the receipt table (R193). -/
def ownCount (c : Controller) : Nat :=
  (c.store.receipts.filter (fun e => match e with
    | none => false
    | some e => e.own)).length

/-- The 45 bytes of STATUS (R193). -/
def statusBody (c : Controller) : List Byte :=
  bytesOf 1 (stateCode c.account.state) ++ bytesOf 1 (timeCode c.clock.timeState) ++ bytesOf 2 c.clock.day
    ++ bytesOf 3 c.clock.second ++ bytesOf 3 c.account.live.energy ++ bytesOf 4 c.account.live.timeCredit
    ++ bytesOf 1 c.account.live.lifeline ++ bytesOf 4 c.account.live.lifetime
    ++ bytesOf 2 (conditionField c.account.conditions) ++ bytesOf 2 c.account.live.bypass
    ++ bytesOf 1 c.check.store.corrected ++ bytesOf 1 c.check.store.uncorrected
    ++ bytesOf 1 c.check.account.corrected ++ bytesOf 1 c.check.account.uncorrected ++ bytesOf 2 c.radio.discards
    ++ captureBytes c.check.store.capture ++ captureBytes c.check.account.capture ++ bytesOf 2 c.exchange.tally
    ++ bytesOf 1 (occupied c.store.vouchers) ++ bytesOf 1 (localCount c) ++ bytesOf 1 (occupied c.store.receipts)
    ++ bytesOf 1 (ownCount c) ++ bytesOf 1 c.store.retired.length ++ bytesOf 1 c.account.pendingOwn.length
    ++ bytesOf 2 c.store.log.length

/-- Both captures emptied (R177, R193). -/
def emptyCaptures (c : Controller) : Controller :=
  { c with check := { c.check with
      store := { c.check.store with capture := none }, account := { c.check.account with capture := none } } }

/-- STATUS carried out (R176, R193): the account and both tables, whose entries' marks it counts, are read (R172). An error
found by these reads is captured before the captures are returned, the one of R177's two ways that the model chooses
(notes/assumptions/36.md). -/
def doStatus (c : Controller) : Controller :=
  if accountReads c then
    let c := readTables (readAccount c)
    emptyCaptures (respond 4 .ok (statusBody c) c)
  else respond 4 .refused [] (readAccount c)

/-! ### SET-TIME and ARM-FAULT (R90, R91, R179, R197) -/

/-- SET-TIME at an ORDINARY or UNCOMMISSIONED station (R91). -/
def setOrdinary (day second : Nat) (c : Controller) : Controller :=
  match c.clock.timeState with
  | .set => respond 3 .wrongState [] c
  | .unset => respond 3 .ok [] (setsTime false day second .set c)
  | .provisional =>
    if timeCount c.clock.day c.clock.second ≤ timeCount day second then
      respond 3 .ok [] (setsTime false day second .set c)
    else respond 3 .refused [] c

/-- SET-TIME carried out (R90, R91, R197). -/
def doSetTime (day second : Nat) (c : Controller) : Controller :=
  if isAgent c then respond 3 .ok [] (setsTime true day second .set c) else setOrdinary day second c

/-- The fault an ARM-FAULT body names, if its values lie in range (R179, R191). -/
def readFault (b : List Byte) : Option ArmedFault :=
  let count := fieldAt b 1 1
  let bit := fieldAt b 2 1
  if 1 ≤ count ∧ count ≤ 2 ∧ bit ≤ 38 then
    match fieldAt b 0 1 with
    | 1 => some ⟨.store, count, bit⟩
    | 2 => some ⟨.account, count, bit⟩
    | _ => none
  else none

/-- ARM-FAULT carried out (R179). -/
def doArmFault (b : List Byte) (c : Controller) : Controller :=
  match readFault b with
  | none => respond 7 .badParam [] c
  | some a => respond 7 .ok [] { c with check := { c.check with armed := some a } }

/-! ### INJECT and COLLECT (R195, R196) -/

/-- A foreign voucher injected (R117, R195): the state after and its mark. -/
def injectForeign (v : Voucher) (c : Controller) : Controller × Bool :=
  let c := readForEntry c
  (enterVoucher v c, match entryAnswer c v with
    | .taken => true
    | .alreadyHeld => true
    | .retired => false
    | .noRoom => false)

/-- One voucher of an INJECT handed over (R195): the state after and its mark. An own voucher that stands twice in one
INJECT, its first copy in flight and the list full of lower serials, is marked taken once: R28 answers the second
NOT-TAKEN, and the model's choice is to follow it (notes/assumptions/33.md). -/
def injectOne (i : VoucherItem) (c : Controller) : Controller × Bool :=
  match voucherOfItem { i with hop := 0 } with
  | none => (c, false)
  | some v => if v.target = ownKit c then (deliver v none c, deliveryTaken v c) else injectForeign v c

/-- The vouchers of an INJECT handed over one at a time, in body order, with their marks (R195). -/
def injectAll : List VoucherItem → Controller → Controller × List Bool
  | [], c => (c, [])
  | i :: rest, c =>
    let r := injectOne i c
    let all := injectAll rest r.1
    (all.1, r.2 :: all.2)

/-- INJECT carried out (R195). -/
def doInject (b : List Byte) (c : Controller) : Controller :=
  let n := fieldAt b 0 1
  let r := injectAll ((pieces (b.drop 1) 16 n).map readVoucherItem) c
  respond 5 .ok (bytesOf 1 n ++ r.2.map (fun m => if m then 1#8 else 0#8)) r.1

/-- One part of COLLECT's response (R196). -/
def collectPart (part parts : Nat) (rs : List Receipt) : List Byte :=
  bytesOf 1 part ++ bytesOf 1 parts ++ bytesOf 1 rs.length ++ rs.flatMap (fun r => receiptItemBytes (itemOfReceipt r))

/-- The receipts that leave the log, and the log after them (R111). -/
def collectFrom (c : Controller) : List Receipt × Controller :=
  let c := readLog c
  (c.store.log.take 8, { c with store := { c.store with log := c.store.log.drop 8 } })

/-- COLLECT carried out: the receipts removed, the own receipts moved, one or two parts returned (R110, R111, R196). -/
def doCollect (c : Controller) : Controller :=
  let r := collectFrom c
  let c := if r.1.isEmpty then r.2 else moveOwn r.2
  if r.1.length ≤ 6 then respond 6 .ok (collectPart 1 1 r.1) c
  else respond 6 .ok (collectPart 2 2 (r.1.drop 6)) (respondPart 6 .ok (collectPart 1 2 (r.1.take 6)) false c)

/-! ### COMMISSION, RESTART and DECOMMISSION (R170, R194, R197, R198) -/

/-- The commissioning procedure's first steps: WRITE-SAFE sampled, the pages erased, the block begun (R170). -/
def beginCommission (p : Params) (c : Controller) : Controller :=
  if c.power.writeSafe then
    { c with journal := { Journal.started (List.replicate 16 .erased) .torn with
        writeState := .writing, commissioning := some (p, .block .first) } }
  else { c with journal := { c.journal with commissioning := some (p, .ended false) } }

/-- COMMISSION's values judged and handed to the Journal (R192, R194). -/
def doCommission (b : List Byte) (c : Controller) : Controller :=
  match readParams b with
  | none => respond 2 .badParam [] c
  | some p => beginCommission p c

/-- The commissioning procedure has ended: COMMISSION is answered (R194). -/
def takeCommissioned (c : Controller) : Controller :=
  match c.journal.commissioning with
  | some (_, .ended done) =>
    let c := { c with journal := { c.journal with commissioning := none } }
    if c.service.inProgress = some 2 then respond 2 (if done then .ok else .refused) [] c else c
  | _ => c

/-- DECOMMISSION's code compared (R12, R198). -/
def doDecommission (code : Nat) (c : Controller) : Controller :=
  match c.params with
  | none => respond 9 .wrongState [] c
  | some p => if decommissionCode p = code then decommissionBegins c else respond 9 .refused [] c

/-- The erasure under way, and not waiting, is complete (R171, R198), at either level of WRITE-SAFE: the model's choice
(notes/assumptions/49.md). -/
def takeErased (c : Controller) : Controller :=
  if c.journal.writeState = .erasing ∧ c.journal.erasureWaits = false then
    let c := decommissionEffect c
    if c.service.inProgress = some 9 then respond 9 .ok [] c else c
  else c

/-! ### Receive states and sending (R189, R190, R197) -/

/-- A byte on the line (R189): 7Eh in HUNT begins a frame; in FRAME it is collected, and the frame is discarded, or taken:
answered BUSY, or a command in progress that is on its way to be handled (R190). -/
def takeHuntByte (b : Byte) (c : Controller) : Controller :=
  match c.service.line with
  | .hunt => if b = serviceStart then { c with service := { c.service with line := .frame, frame := [] } } else c
  | .frame =>
    match judgeRequest (c.service.frame ++ [b]) with
    | .collecting => { c with service := { c.service with frame := c.service.frame ++ [b] } }
    | .discarded => toHunt c
    | .taken code body => frameTaken code.toNat (emit (commandOf code body)) (toHunt c)

/-- What follows the last byte of a final response: the command is no longer in progress, and RESTART's MAIN START is on
its way (R190, R197). -/
def finalSent (r : Response) (c : Controller) : Controller :=
  if r.final then
    let c := { c with service := { c.service with inProgress := none } }
    if r.code = 8 ∧ r.status = .ok then emit .mainStart c else c
  else c

/-- The first response formed has been sent (R190). -/
def takeSent (c : Controller) : Controller :=
  match c.service.responses with
  | [] => c
  | r :: rest => finalSent r { c with service := { c.service with responses := rest } }

/-! ### The commands -/

/-- UNKNOWN_COMMAND (R190): BAD-FORM. -/
def execUnknownCommand (code : Byte) (body : List Byte) (s : State) : Host.Outcome State Fault Refusal :=
  onMain (takeCommand (.unknownCommand code body) code.toNat (respond code.toNat .badForm [])) s

/-- IDENTIFY (R191). -/
def execIdentify (body : List Byte) (s : State) : Host.Outcome State Fault Refusal :=
  onMain (takeCommand (.identify body) 1 (check body.isEmpty 1 .badForm (fun c => respond 1 .ok (identifyBody c) c))) s

/-- COMMISSION (R190, R192, R194). -/
def execCommission (body : List Byte) (s : State) : Host.Outcome State Fault Refusal :=
  onMain (takeCommand (.commission body) 2 (check (decide (body.length = 38)) 2 .badForm (fun c =>
    check (!isCommissioned c) 2 .wrongState (doCommission body) c))) s

/-- COMMISSION_COMPLETE (R170, R194). -/
def execCommissionComplete (s : State) : Host.Outcome State Fault Refusal := onMain takeCommissioned s

/-- SET_TIME (R90, R91, R197). -/
def execSetTime (body : List Byte) (s : State) : Host.Outcome State Fault Refusal :=
  onMain (takeCommand (.setTime body) 3 (check (decide (body.length = 5)) 3 .badForm
    (check (decide (fieldAt body 2 3 ≤ Config.secondMax)) 3 .badParam
      (doSetTime (fieldAt body 0 2) (fieldAt body 2 3))))) s

/-- STATUS (R193). -/
def execStatus (body : List Byte) (s : State) : Host.Outcome State Fault Refusal :=
  onMain (takeCommand (.status body) 4 (check body.isEmpty 4 .badForm doStatus)) s

/-- INJECT (R190, R195). A body has the required length when a count and that many vouchers fill it. -/
def execInject (body : List Byte) (s : State) : Host.Outcome State Fault Refusal :=
  onMain (takeCommand (.inject body) 5 (check (decide (body.length = 1 + 16 * fieldAt body 0 1)) 5 .badForm (fun c =>
    check (isCommissioned c) 5 .wrongState (fun c =>
      check (isAgent c) 5 .notAgent
        (check (decide (1 ≤ fieldAt body 0 1) && decide (fieldAt body 0 1 ≤ 8)) 5 .badParam (doInject body)) c) c))) s

/-- COLLECT (R190, R196). -/
def execCollect (body : List Byte) (s : State) : Host.Outcome State Fault Refusal :=
  onMain (takeCommand (.collect body) 6 (check body.isEmpty 6 .badForm (fun c =>
    check (isCommissioned c) 6 .wrongState (fun c => check (isAgent c) 6 .notAgent doCollect c) c))) s

/-- ARM_FAULT (R179, R190). -/
def execArmFault (body : List Byte) (s : State) : Host.Outcome State Fault Refusal :=
  onMain (takeCommand (.armFault body) 7 (check (decide (body.length = 3)) 7 .badForm (doArmFault body))) s

/-- RESTART (R197): answered first; the MAIN START follows the last byte. -/
def execRestart (body : List Byte) (s : State) : Host.Outcome State Fault Refusal :=
  onMain (takeCommand (.restart body) 8 (check body.isEmpty 8 .badForm (respond 8 .ok []))) s

/-- DECOMMISSION (R198). -/
def execDecommission (body : List Byte) (s : State) : Host.Outcome State Fault Refusal :=
  onMain (takeCommand (.decommission body) 9 (check (decide (body.length = 4)) 9 .badForm (fun c =>
    check (isCommissioned c) 9 .wrongState
      (check (decide (fieldAt body 0 4 ≤ 99999999)) 9 .badParam (doDecommission (fieldAt body 0 4))) c))) s

/-- ERASURE_COMPLETE (R171, R198). -/
def execErasureComplete (s : State) : Host.Outcome State Fault Refusal := onMain takeErased s

/-- RESPONSE_SENT (R190, R197). -/
def execResponseSent (s : State) : Host.Outcome State Fault Refusal := onMain takeSent s

/-- HUNT_BYTE (R189). -/
def execHuntByte (b : Byte) (s : State) : Host.Outcome State Fault Refusal := onMain (takeHuntByte b) s

/-- SERVICE_FRAME_DISCARD (R189). -/
def execServiceFrameDiscard (s : State) : Host.Outcome State Fault Refusal := onMain toHunt s

/-- SERVICE_INTER_BYTE_TIMEOUT (R189). -/
def execServiceInterByteTimeout (s : State) : Host.Outcome State Fault Refusal := onMain toHunt s

end Sys2Proof.Machine
end

