-- ==== Sys2Proof/Machine/Dispatch.lean ====
section
/-! DEFINITION. One arm per command of the opcode table: the call of its meaning. -/

namespace Sys2Proof.Machine

/-- A command's effect on everything but the queue. -/
def exec (i : Instr) (s : State) : Host.Outcome State Fault Refusal :=
  match i with
  | .coldStart => Sys2Proof.Machine.execColdStart s
  | .mainStart => Sys2Proof.Machine.execMainStart s
  | .mainPowerLoss => Sys2Proof.Machine.execMainPowerLoss s
  | .powerFailWarning => Sys2Proof.Machine.execPowerFailWarning s
  | .writeSafeRise => Sys2Proof.Machine.execWriteSafeRise s
  | .writeSafeFall => Sys2Proof.Machine.execWriteSafeFall s
  | .wholeSecond => Sys2Proof.Machine.execWholeSecond s
  | .secondEventAccount => Sys2Proof.Machine.execSecondEventAccount s
  | .secondEventMeter => Sys2Proof.Machine.execSecondEventMeter s
  | .secondEventSwitch => Sys2Proof.Machine.execSecondEventSwitch s
  | .tripHoldEnd => Sys2Proof.Machine.execTripHoldEnd s
  | .sampleReply b1 b2 b3 b4 => Sys2Proof.Machine.execSampleReply b1 b2 b3 b4 s
  | .replyWindowExpiry => Sys2Proof.Machine.execReplyWindowExpiry s
  | .straySenseByte b => Sys2Proof.Machine.execStraySenseByte b s
  | .chargeReport => Sys2Proof.Machine.execChargeReport s
  | .lifetimeReport => Sys2Proof.Machine.execLifetimeReport s
  | .bypassReport => Sys2Proof.Machine.execBypassReport s
  | .goodSampleReport => Sys2Proof.Machine.execGoodSampleReport s
  | .conditionReport news => Sys2Proof.Machine.execConditionReport news s
  | .capVerdict v => Sys2Proof.Machine.execCapVerdict v s
  | .accountStateToSwitch st => Sys2Proof.Machine.execAccountStateToSwitch st s
  | .hailTimeArrival sender agent timeSet day second => Sys2Proof.Machine.execHailTimeArrival sender agent timeSet day second s
  | .timeStateReport st => Sys2Proof.Machine.execTimeStateReport st s
  | .dayRolloverAccount day => Sys2Proof.Machine.execDayRolloverAccount day s
  | .dayRolloverStore day => Sys2Proof.Machine.execDayRolloverStore day s
  | .dayRolloverJournal day => Sys2Proof.Machine.execDayRolloverJournal day s
  | .absenceReset => Sys2Proof.Machine.execAbsenceReset s
  | .hailTimerExpiry busy => Sys2Proof.Machine.execHailTimerExpiry busy s
  | .backoffTimerExpiry busy => Sys2Proof.Machine.execBackoffTimerExpiry busy s
  | .transmissionEnd busy => Sys2Proof.Machine.execTransmissionEnd busy s
  | .askDeadline busy => Sys2Proof.Machine.execAskDeadline busy s
  | .askWindowClose busy => Sys2Proof.Machine.execAskWindowClose busy s
  | .tookWaitExpiry busy => Sys2Proof.Machine.execTookWaitExpiry busy s
  | .askDelayExpiry busy => Sys2Proof.Machine.execAskDelayExpiry busy s
  | .carryTimeout => Sys2Proof.Machine.execCarryTimeout s
  | .hailReceived f => Sys2Proof.Machine.execHailReceived f s
  | .askReceived f => Sys2Proof.Machine.execAskReceived f s
  | .carryReceived f busy => Sys2Proof.Machine.execCarryReceived f busy s
  | .tookReceived f busy => Sys2Proof.Machine.execTookReceived f busy s
  | .dozeSample busy => Sys2Proof.Machine.execDozeSample busy s
  | .dozeSampleEnd => Sys2Proof.Machine.execDozeSampleEnd s
  | .startMarkFound => Sys2Proof.Machine.execStartMarkFound s
  | .headerClassInvalid => Sys2Proof.Machine.execHeaderClassInvalid s
  | .frameTruncated => Sys2Proof.Machine.execFrameTruncated s
  | .frameComplete bytes => Sys2Proof.Machine.execFrameComplete bytes s
  | .listenHoldExpiry => Sys2Proof.Machine.execListenHoldExpiry s
  | .stagedCommitVerified reserve => Sys2Proof.Machine.execStagedCommitVerified reserve s
  | .periodicCommitVerified reserve => Sys2Proof.Machine.execPeriodicCommitVerified reserve s
  | .commitInhibitedReport => Sys2Proof.Machine.execCommitInhibitedReport s
  | .commitFailedReport kind => Sys2Proof.Machine.execCommitFailedReport kind s
  | .pageProgramDone intact => Sys2Proof.Machine.execPageProgramDone intact s
  | .verifyDone readTrue => Sys2Proof.Machine.execVerifyDone readTrue s
  | .recoveryScanComplete => Sys2Proof.Machine.execRecoveryScanComplete s
  | .reloadScanComplete => Sys2Proof.Machine.execReloadScanComplete s
  | .keyPress k => Sys2Proof.Machine.execKeyPress k s
  | .interKeyTimeout => Sys2Proof.Machine.execInterKeyTimeout s
  | .outcomeAnswer n a => Sys2Proof.Machine.execOutcomeAnswer n a s
  | .answerWaitExpiry => Sys2Proof.Machine.execAnswerWaitExpiry s
  | .displayTimer => Sys2Proof.Machine.execDisplayTimer s
  | .flashTimerExpiry => Sys2Proof.Machine.execFlashTimerExpiry s
  | .serviceFrameDiscard => Sys2Proof.Machine.execServiceFrameDiscard s
  | .serviceInterByteTimeout => Sys2Proof.Machine.execServiceInterByteTimeout s
  | .unknownCommand code body => Sys2Proof.Machine.execUnknownCommand code body s
  | .identify body => Sys2Proof.Machine.execIdentify body s
  | .commission body => Sys2Proof.Machine.execCommission body s
  | .commissionComplete => Sys2Proof.Machine.execCommissionComplete s
  | .setTime body => Sys2Proof.Machine.execSetTime body s
  | .status body => Sys2Proof.Machine.execStatus body s
  | .inject body => Sys2Proof.Machine.execInject body s
  | .collect body => Sys2Proof.Machine.execCollect body s
  | .armFault body => Sys2Proof.Machine.execArmFault body s
  | .restart body => Sys2Proof.Machine.execRestart body s
  | .decommission body => Sys2Proof.Machine.execDecommission body s
  | .erasureComplete => Sys2Proof.Machine.execErasureComplete s
  | .responseSent => Sys2Proof.Machine.execResponseSent s
  | .huntByte b => Sys2Proof.Machine.execHuntByte b s
  | .alwaysOnSupplyLoss => Sys2Proof.Machine.execAlwaysOnSupplyLoss s

end Sys2Proof.Machine
end

