-- ==== Sys2Proof/Safety.lean ====
section
/-! DEFINITION. What a safe Controller is: the bounds and relations that the chapters give its state, block by block, and
the words in which the statements speak of it. -/

namespace Sys2Proof.Machine

/-! ### The words of the statements -/

/-- The checked memory holds no word that reads back wrong, and no fault is armed (R172, R179). -/
abbrev cleanMemory (c : Controller) : Prop := c.check.bad = [] ∧ c.check.armed = none

/-- The commands whose effect lies in the always-on domain, in the supplies or in the input pins; every other command is
the main domain's (0.6). -/
def outsideMain : Instr → Bool
  | .coldStart => true
  | .mainStart => true
  | .mainPowerLoss => true
  | .writeSafeRise => true
  | .writeSafeFall => true
  | .wholeSecond => true
  | .alwaysOnSupplyLoss => true
  | _ => false

/-- The commands in which a kit's commissioning begins or ends: the starts, the loss of power, the verification of the
commissioning block and the end of an erasure (R161, R170, R198). -/
def changesCommissioning : Instr → Bool
  | .coldStart => true
  | .mainStart => true
  | .mainPowerLoss => true
  | .verifyDone _ => true
  | .erasureComplete => true
  | _ => false

/-- The commands that put another record in the place of the live one than a staged record: those of
`changesCommissioning`, and the two scans (R21, R22, R24). -/
def replacesRecord : Instr → Bool
  | .coldStart => true
  | .mainStart => true
  | .mainPowerLoss => true
  | .verifyDone _ => true
  | .erasureComplete => true
  | .recoveryScanComplete => true
  | .reloadScanComplete => true
  | _ => false

/-- The command that the next step runs, if one waits or is in transit. -/
def nextCommand (s : State) : Option Instr :=
  match s.pending with
  | i :: _ => some i
  | [] => s.ctl.inTransit.head?

/-- The serials that a record's window counts as applied or skipped (R27). -/
def Record.settled (r : Record) (serial : Nat) : Prop := classify r.base r.marks serial = .duplicate

/-! ### Safe blocks -/

/-- The switch: closed only under an allowed account state, in a trip hold only under LIFELINE, the timer present in a
hold alone and at most 60, the over-cap run below 3 (R69 to R76). -/
def SwitchSafe (w : Switch) : Prop :=
  (w.state = .closed → allowedState w.known = true) ∧ (w.state = .tripHold → w.known = .lifeline)
    ∧ (w.timer.isSome = true ↔ w.state = .tripHold) ∧ (∀ n, w.timer = some n → n ≤ 60) ∧ w.overRun < 3

/-- An account record within the ranges of R20, under a lifeline allowance (R78): its amounts, days, counts, receipt
serial counter and reserve. The window's base is not among them: it rises by the marks, which a page gives as they are. -/
def RecordSafe (allow : Nat) (r : Record) : Prop :=
  r.energy ≤ Config.energyMax ∧ r.timeCredit ≤ Config.timeMax ∧ r.lifeline ≤ allow ∧ r.lifelineDay ≤ Config.dayMax
    ∧ (∀ n, r.counter = some n → n ≤ Config.reserveMax)
    ∧ (r.reserve = 0 ∨ 16 ≤ r.reserve ∧ r.reserve ≤ Config.reserveMax ∧ r.reserve % 16 = 0)
    ∧ r.lifetime ≤ Config.count32Max ∧ r.bypass ≤ 65535 ∧ r.lastStatus ≤ Config.dayMax

/-- The Account Unit: both its records within their ranges, the staged one's counter the live one's unless that is
UNKNOWN, the metered count at most 5 (R20, R31). -/
def AccountSafe (c : Controller) : Prop :=
  RecordSafe (allowance c) c.account.live ∧ (∀ r, c.account.staged = some r → RecordSafe (allowance c) r)
    ∧ (∀ r, c.account.staged = some r → r.counter = c.account.live.counter ∨ c.account.live.counter = none)
    ∧ c.account.metered ≤ 5

/-- The window of a staged record settles every serial that the live one settles (R27, R31). -/
def WindowSafe (a : Account) : Prop := ∀ r, a.staged = some r → ∀ n, a.live.settled n → r.settled n

/-- Every parameter the part holds or is about to hold lies in its commissioning range (R161, R192). -/
def ParamsSafe (c : Controller) : Prop :=
  (∀ p, c.params = some p → paramsInRange p = true) ∧ (∀ p g, c.journal.commissioning = some (p, g) → paramsInRange p = true)

/-- The Meter: both remainders below the quantum, the last good product one that a sample can give, the miss count at most
11 and both supply band runs below 60 (R47, R54, R56, R57, R66). -/
def MeterSafe (m : Meter) : Prop :=
  m.chargeRem < Config.quantum ∧ m.lifetimeRem < Config.quantum ∧ m.lastGood ≤ 4095 * 4095 ∧ m.misses ≤ 11
    ∧ m.lowRun < 60 ∧ m.recoveryRun < 60

/-- The clock: a district day and second of day, a candidate only while UNSET and with a time of its own, the absence
counter at most its stop (R82, R83, R89, R94). -/
def ClockSafe (k : Clock) : Prop :=
  k.day ≤ Config.dayMax ∧ k.second ≤ Config.secondMax ∧ k.absence ≤ Config.timeMax
    ∧ (∀ d, k.candidate = some d → k.timeState = .unset ∧ d.day ≤ Config.dayMax ∧ d.second ≤ Config.secondMax)

/-- The collections within their sizes, no key retired twice, the cursor at an offer position (R36, R95 to R99, R115,
R119, R181). -/
def StoreSafe (c : Controller) : Prop :=
  c.store.vouchers.length = 48 ∧ c.store.receipts.length = 48 ∧ c.store.retired.length ≤ 32 ∧ c.store.retired.Nodup
    ∧ c.store.log.length ≤ 256 ∧ c.store.cursor < 96 ∧ c.account.pendingOwn.length ≤ 4 ∧ c.exchange.askQueue.length ≤ 4
    ∧ c.keypad.buffer.length ≤ 30

/-- The store's keys: each voucher of the table is foreign, within the hop limit and not retired, and stands in one slot
alone; so does each foreign receipt, none of which an AGENT station keeps in its table; own receipts are of this kit (R95,
R96, R98, R101 to R105, R110). -/
def KeysSafe (c : Controller) : Prop :=
  (∀ e : VoucherEntry, some e ∈ c.store.vouchers → e.voucher.target ≠ ownKit c ∧ e.voucher.hop ≤ hopLimit c
      ∧ voucherKey e.voucher ∉ c.store.retired)
    ∧ (∀ (i j : Nat) (e f : VoucherEntry), c.store.vouchers[i]? = some (some e) → c.store.vouchers[j]? = some (some f) →
        voucherKey e.voucher = voucherKey f.voucher → i = j)
    ∧ (∀ e : ReceiptEntry, some e ∈ c.store.receipts → (e.own = true ↔ e.receipt.origin = ownKit c))
    ∧ (∀ e : ReceiptEntry, some e ∈ c.store.receipts → e.own = false → isAgent c = false ∧ e.receipt.hop ≤ hopLimit c
      ∧ receiptKey e.receipt ∉ c.store.retired)
    ∧ (∀ (i j : Nat) (e f : ReceiptEntry), c.store.receipts[i]? = some (some e) →
        c.store.receipts[j]? = some (some f) → e.own = false → f.own = false → receiptKey e.receipt = receiptKey f.receipt → i = j)

/-- The receive state: a frame on the air exactly while TRANSMITTING, one being received exactly while RECEIVING (R143, R147). -/
def RadioSafe (r : Radio) : Prop :=
  (r.onAir.isSome = true ↔ r.rx = .transmitting) ∧ (r.reception.isSome = true ↔ r.rx = .receiving)

/-- A safe Controller. -/
def Safe (c : Controller) : Prop :=
  SwitchSafe c.switch ∧ AccountSafe c ∧ WindowSafe c.account ∧ ParamsSafe c ∧ MeterSafe c.meter ∧ ClockSafe c.clock
    ∧ StoreSafe c ∧ KeysSafe c ∧ RadioSafe c.radio

end Sys2Proof.Machine
end

