-- ==== Sys2Proof/Certificates/Slice0/Obligations.lean ====
section
/-! DEFINITION. The statements about this model, block by block. Each is a `Prop` for the provers; the rules and sections
it rests on stand in OBLIGATIONS.json. Several names in them are the model's own, and a statement that holds one of them
has basis 'derived' for it: `arrive`, `emit` and the field `inTransit` are how one block's report reaches another
(notes/assumptions/1.md), `drawn lo hi c` and the field `draws` are the free values, and a statement that names one holds
whatever its value is (notes/assumptions/3.md), the operand `busy` is the level of the channel-busy input
(notes/assumptions/4.md), and the keypad's evaluation numbers pair an answer with its voucher (notes/assumptions/16.md). -/

section Statements

open Sys2Proof Sys2Proof.Machine

/-! ### The queue, the reports in transit and the two power domains -/

/-- A step of a state with a command at the front of its queue is that command's meaning on the queue's rest. With no
command waiting, a step delivers the oldest report in transit between two blocks, or idles: the model's choice
(notes/assumptions/2.md). -/
def Obligations.StepRunsTheFrontCommand : Prop :=
  (∀ (i : Instr) (rest : List Instr) (s : State), s.pending = i :: rest → step s = exec i { s with pending := rest })
  ∧ ∀ s : State, s.pending = [] →
    (s.ctl.inTransit = [] → step s = .next s)
      ∧ ∀ (i : Instr) (l : List Instr), s.ctl.inTransit = i :: l → step s = exec i s

/-- Every command completes on every state, does the same whatever waits behind it, and leaves the queue alone. While the
main domain has no power its commands change nothing, which is the model's reading of a domain that is off
(notes/assumptions/9.md). -/
def Obligations.EveryCommandCompletes : Prop :=
  ∀ (i : Instr) (s : State),
    (∃ c : Controller, ∀ q : List Instr, exec i { s with pending := q } = .next { ctl := c, pending := q })
    ∧ (s.ctl.power.mainOn = false → outsideMain i = false → exec i s = .next s)

/-- What reset leaves: an UNCOMMISSIONED station right after COLD START, which is safe. That the station is UNCOMMISSIONED
rests on the erased nonvolatile store, the model's choice for the part as it first comes up (notes/assumptions/5.md). -/
def Obligations.ResetIsAColdUncommissionedStation : Prop :=
  State.reset.pending = [] ∧ State.reset.ctl.params = none ∧ State.reset.ctl.account.state = .uncommissioned
    ∧ State.reset.ctl.account.live.commissioned = false ∧ State.reset.ctl.account.pendingOwn = []
    ∧ State.reset.ctl.account.conditions = [] ∧ State.reset.ctl.switch.state = .opened
    ∧ State.reset.ctl.switch.timer = none ∧ State.reset.ctl.meter.mode = .idle
    ∧ State.reset.ctl.clock.timeState = .unset ∧ State.reset.ctl.clock.day = 0 ∧ State.reset.ctl.clock.second = 0
    ∧ State.reset.ctl.clock.absence = 0 ∧ State.reset.ctl.radio.active = false ∧ State.reset.ctl.radio.rx = .doze
    ∧ State.reset.ctl.store.vouchers = List.replicate 48 none ∧ State.reset.ctl.store.receipts = List.replicate 48 none
    ∧ State.reset.ctl.store.retired = [] ∧ State.reset.ctl.store.log = [] ∧ State.reset.ctl.check.armed = none
    ∧ State.reset.ctl.service.line = .hunt ∧ State.reset.ctl.keypad.entry = .idle ∧ Safe State.reset.ctl

/-! ### Starts and losses of power (R21, R48, R69, R82, R100, R119, R143, R155, R162, R173, R180, R189) -/

/-- COLD START: every block takes its start values; with a good commissioning block the Meter samples, the radio is
active, the hail timer runs to a delay of 1 ms to the hail period, and the scan that is to deduct 3,600 s begins. That the
account record is blank until the scan ends is the model's choice (notes/assumptions/32.md), and the evaluation number kept and
the empty transit are its own (16.md and 1.md). -/
def Obligations.ColdStartTakesTheStartValues : Prop :=
  (∀ (s : State) (p : Params), goodBlock s.ctl.journal.block = some p →
    exec .coldStart s = .next { s with ctl := {
      power := { s.ctl.power with mainOn := true, alwaysOn := true }
      params := some p, decommissioning := false, account := Account.blank, meter := Meter.started .sampling
      switch := Switch.started, clock := Clock.cold, store := Store.emptied []
      exchange := Exchange.started (some (drawn 1 (p.hailPeriod * 1000) s.ctl)) 0 0
      radio := Radio.started true 0, channel := Channel.empty
      journal := { Journal.started s.ctl.journal.pages s.ctl.journal.block with
        writeState := .scanning, scan := some .cold }
      check := { store := RegionCheck.clear, account := RegionCheck.clear, armed := none, bad := [] }
      keypad := Keypad.started s.ctl.keypad.evaluation, service := ServiceLine.started, inTransit := []
      draws := s.ctl.draws + 1 } })
  ∧ ∀ s : State, goodBlock s.ctl.journal.block = none →
    exec .coldStart s = .next { s with ctl := {
      power := { s.ctl.power with mainOn := true, alwaysOn := true }
      params := none, decommissioning := false, account := Account.blank, meter := Meter.started .idle
      switch := Switch.started, clock := Clock.cold, store := Store.emptied []
      exchange := Exchange.started none 0 0, radio := Radio.started false 0, channel := Channel.empty
      journal := Journal.started s.ctl.journal.pages s.ctl.journal.block
      check := { store := RegionCheck.clear, account := RegionCheck.clear, armed := none, bad := [] }
      keypad := Keypad.started s.ctl.keypad.evaluation, service := ServiceLine.started, inTransit := []
      draws := s.ctl.draws } }

/-- MAIN START with the always-on domain kept: as COLD START, but the clock runs on, the collection log and its words are
kept, and the scan is to deduct the absence as it was read; without a good commissioning block no scan is made and the
absence counter is 0. Without the always-on domain it is a COLD START. That the record is blank until the scan ends, and the
absence counter kept until then, is the model's choice (notes/assumptions/32.md and 14.md), and the evaluation number kept and
the empty transit are its own (16.md and 1.md). -/
def Obligations.MainStartKeepsTheAlwaysOnDomain : Prop :=
  (∀ (s : State) (p : Params), s.ctl.power.alwaysOn = true → goodBlock s.ctl.journal.block = some p →
    exec .mainStart s = .next { s with ctl := {
      power := { s.ctl.power with mainOn := true }
      params := some p, decommissioning := false, account := Account.blank, meter := Meter.started .sampling
      switch := Switch.started, clock := s.ctl.clock, store := Store.emptied s.ctl.store.log
      exchange := Exchange.started (some (drawn 1 (p.hailPeriod * 1000) s.ctl)) 0 0
      radio := Radio.started true 0, channel := Channel.empty
      journal := { Journal.started s.ctl.journal.pages s.ctl.journal.block with
        writeState := .scanning, scan := some (.main s.ctl.clock.absence) }
      check := { store := RegionCheck.clear, account := RegionCheck.clear, armed := none, bad := logWords s.ctl.check.bad }
      keypad := Keypad.started s.ctl.keypad.evaluation, service := ServiceLine.started, inTransit := []
      draws := s.ctl.draws + 1 } })
  ∧ (∀ s : State, s.ctl.power.alwaysOn = true → goodBlock s.ctl.journal.block = none →
    exec .mainStart s = .next { s with ctl := { mainLost s.ctl with
      power := { s.ctl.power with mainOn := true }, clock := { s.ctl.clock with absence := 0 } } })
  ∧ ∀ s : State, s.ctl.power.alwaysOn = false → exec .mainStart s = exec .coldStart s

/-- A loss of main power takes the whole main domain and leaves the always-on domain and the nonvolatile store; a loss of
the always-on supply, which comes only while the main domain is off, takes the clock and the collection log. The values
that the main domain's fields hold while it is off, and that ALWAYS_ON_SUPPLY_LOSS under power changes nothing, are the
model's choice (notes/assumptions/14.md). -/
def Obligations.LossesOfPower : Prop :=
  (∀ s : State, exec .mainPowerLoss s = .next { s with ctl := { s.ctl with
      power := { s.ctl.power with mainOn := false }
      params := none, decommissioning := false, account := Account.blank, meter := Meter.started .idle
      switch := Switch.started, store := Store.emptied s.ctl.store.log, exchange := Exchange.started none 0 0
      radio := Radio.started false 0, channel := Channel.empty
      journal := Journal.started s.ctl.journal.pages s.ctl.journal.block
      check := { store := RegionCheck.clear, account := RegionCheck.clear, armed := none, bad := logWords s.ctl.check.bad }
      keypad := Keypad.started s.ctl.keypad.evaluation, service := ServiceLine.started, inTransit := [] } })
  ∧ (∀ s : State, s.ctl.power.mainOn = false → exec .alwaysOnSupplyLoss s = .next { s with ctl := { s.ctl with
      power := { s.ctl.power with alwaysOn := false }, clock := Clock.cold, store := Store.emptied []
      check := { s.ctl.check with bad := [] } } })
  ∧ ∀ s : State, s.ctl.power.mainOn = true → exec .alwaysOnSupplyLoss s = .next s

/-- Only the starts, a loss of power, the verification of the commissioning block and the end of an erasure change the
commissioned parameters; and a commissioned station's kit number, key, role and parameters are those commissioned. -/
def Obligations.ParametersChangeOnlyWithCommissioning : Prop :=
  (∀ (i : Instr) (s t : State), changesCommissioning i = false → exec i s = .next t → t.ctl.params = s.ctl.params)
  ∧ ∀ (c : Controller) (p : Params), c.params = some p →
    ownKit c = p.kit ∧ ownKey c = p.key ∧ isAgent c = decide (p.role = .agent) ∧ lowThreshold c = p.lowThreshold
      ∧ allowance c = p.allowance ∧ hopLimit c = p.hopLimit ∧ captureMode c = p.capture ∧ hailPeriod c = p.hailPeriod
      ∧ burstSize c = p.burst ∧ relayCutoff c = p.relayCutoff ∧ listenMs c = 100 * p.listenHold

/-! ### The check function, typed codes and frames -/

/-- A CRC-16 register after `n` of the steps of R9: shifted one place towards its top with a 0 entering, and combined with
1021h where the bit shifted out was 1. -/
def Sys2Proof.Machine.steppedRegister : Nat → Nat → Nat
  | 0, r => r
  | n + 1, r => steppedRegister n (if 32768 ≤ r then (2 * r - 65536) ^^^ 4129 else 2 * r)

/-- The CRC-16 is the register of R9: FFFFh at first, then each byte combined into its upper eight bits and eight steps, so
that "123456789" gives 29B1h. A voucher's tag is that of R11: the CRC-16s of the two halves of the key, each followed by the
twelve bytes of target, serial, kind, amount and use-by residue, as one number reduced mod 100,000,000; H1 = 47,042 with
H2 = 6,661 reduces to 82,951,173. -/
def Obligations.Crc16AndTags : Prop :=
  ((crc16 []).toNat = 0xFFFF
    ∧ (∀ (bs : List Byte) (b : Byte),
      (crc16 (bs ++ [b])).toNat = steppedRegister 8 ((crc16 bs).toNat ^^^ (b.toNat * 256)))
    ∧ (crc16 [0x31#8, 0x32#8, 0x33#8, 0x34#8, 0x35#8, 0x36#8, 0x37#8, 0x38#8, 0x39#8]).toNat = 0x29B1)
  ∧ (∀ (key : List Byte) (v : Voucher) (residue H1 H2 : Nat) (msg : List Byte),
    (∀ day : Nat, v.useBy = .full day → residue = day % 1000) → (∀ r : Nat, v.useBy = .residue r → residue = r) →
    msg = [BitVec.ofNat 8 (v.target / 16777216), BitVec.ofNat 8 (v.target / 65536), BitVec.ofNat 8 (v.target / 256),
      BitVec.ofNat 8 v.target, BitVec.ofNat 8 (v.serial / 256), BitVec.ofNat 8 v.serial, BitVec.ofNat 8 v.kind,
      BitVec.ofNat 8 (v.amount / 65536), BitVec.ofNat 8 (v.amount / 256), BitVec.ofNat 8 v.amount,
      BitVec.ofNat 8 (residue / 256), BitVec.ofNat 8 residue] →
    H1 = (crc16 (key.take 8 ++ msg)).toNat → H2 = (crc16 (key.drop 8 ++ msg)).toNat →
    voucherTag key v = (H1 * 65536 + H2) % 100000000 ∧ voucherTag key v ≤ 99999999)
  ∧ (47042 * 65536 + 6661) % 100000000 = 82951173

/-- A use-by day reconstructed from a residue against a day T is the first candidate D0, the day of that residue among T - 500
to T + 499, moved by 1,000 where it lies outside the epoch: a district day of that residue. -/
def Obligations.UseByDayReconstructed : Prop :=
  ∀ r T : Nat, r < 1000 → T ≤ 65535 →
    (∃ D0 : Int, (T : Int) - 500 ≤ D0 ∧ D0 ≤ (T : Int) + 499 ∧ D0 % 1000 = (r : Int)
      ∧ (reconstruct r T : Int) = if D0 < 0 then D0 + 1000 else if 65535 < D0 then D0 - 1000 else D0)
    ∧ reconstruct r T % 1000 = r ∧ reconstruct r T ≤ 65535

/-- Every good frame of another station, written as its bytes, is read back whole by the checks of reception. -/
def Obligations.FrameBytesReadBack : Prop :=
  ∀ (kit : Nat) (f : AirFrame), (frameHeader f).2.sender ≠ kit →
    (match f with
      | .hail g => g.good = true
      | .ask g => g.good = true
      | .carry g => g.good = true
      | .took g => g.good = true) →
    judgeFrame kit (frameBytes f) = .good f

/-- A number written in bytes and a field read from bytes have their most significant byte first. Bytes pass the check
exactly when their last two are the CRC-16 of those before. A voucher item or a receipt item of a
CARRY is read back from its bytes; a record that an item spells is made into that item again; and a voucher or receipt record
in range, its use-by day whole and its conditions in the order of falling codes, is what the item made of it spells. -/
def Obligations.ChecksAndItemsReadBack : Prop :=
  ((∀ (bs : List Byte) (a n : Nat), fieldAt bs a n = ((bs.drop a).take n).foldl (fun x b => 256 * x + b.toNat) 0)
    ∧ ∀ n v : Nat, (bytesOf n v).length = n ∧ fieldAt (bytesOf n v) 0 n = v % 256 ^ n)
  ∧ (∀ (bs : List Byte) (b1 b2 : Byte), crcPasses (bs ++ [b1, b2]) = true ↔ bs ++ [b1, b2] = withCrc bs)
  ∧ (∀ i : VoucherItem, i.inBytes = true → readVoucherItem (voucherItemBytes i) = i)
  ∧ (∀ i : ReceiptItem, i.inBytes = true → readReceiptItem (receiptItemBytes i) = i)
  ∧ (∀ (i : VoucherItem) (v : Voucher), voucherOfItem i = some v → itemOfVoucher v = i)
  ∧ (∀ (i : ReceiptItem) (r : Receipt), i.inBytes = true → receiptOfItem i = some r → itemOfReceipt r = i)
  ∧ (∀ (v : Voucher) (day : Nat), 1 ≤ v.target → v.target ≤ 99999999 → 1 ≤ v.serial → v.serial ≤ 9999 → v.hop ≤ 15 →
    v.useBy = .full day → voucherOfItem (itemOfVoucher v) = some v)
  ∧ ∀ r : Receipt, 1 ≤ r.origin → r.origin ≤ 99999999 → 1 ≤ r.serial → r.serial ≤ 65535 → r.hop ≤ 15 →
    (r.outcome = .status → r.voucherSerial = 0) →
    (r.outcome ≠ .status → 1 ≤ r.voucherSerial ∧ r.voucherSerial ≤ 9999) →
    r.conditions = allConditions.filter (fun x => r.conditions.contains x) →
    receiptOfItem (itemOfReceipt r) = some r

/-! ### The Journal (R160 to R171) -/

/-- The application in flight has its commit verified, and the account has not yet taken that report. -/
def Sys2Proof.Machine.reportAwaited (c : Controller) : Bool :=
  match c.account.flight with
  | some f => f.verified
  | none => false

/-- The Controller as an image is taken from it: where a verified report is awaited, the staged record has replaced the live one
and the state is derived (notes/assumptions/19.md). -/
def Sys2Proof.Machine.asImaged (c : Controller) : Controller :=
  match reportAwaited c, c.account.staged with
  | true, some r => derive (writeLive (fun _ => r) { c with account := { c.account with staged := none } })
  | _, _ => c

/-- The Controller with a commit's first write begun: its image is the record `r` with the reserve of R40, the Meter's
remainders, the kit number and the next sequence, its target the page after the newest. -/
def Sys2Proof.Machine.writeBegun (kind : CommitKind) (r : Record) (c : Controller) : Controller :=
  { c with journal := { c.journal with
      periodicPending := false, stagedWaiting := false, writeState := .writing
      pages := c.journal.pages.set ((c.journal.newestPage + 1) % 16) .torn
      slot := some {
        kind := kind, attempt := .first, target := (c.journal.newestPage + 1) % 16, overtaken := false
        image := {
          sequence := c.journal.newestSeq + 1, kit := ownKit c, commissioned := r.commissioned, owned := r.owned
          energy := r.energy, timeCredit := r.timeCredit, lifeline := r.lifeline, lifelineDay := r.lifelineDay
          base := r.base, marks := r.marks
          reserve := if c.account.live.counter = some c.account.live.reserve ∧ c.account.live.reserve < 65536
            then c.account.live.reserve + 16 else c.account.live.reserve
          chargeRem := c.meter.chargeRem, lifetimeRem := c.meter.lifetimeRem, lifetime := r.lifetime
          bypass := r.bypass, lastStatus := r.lastStatus } } } }

/-- The write attempt that the waiting requests bring with clean memory. Without a request there is none. It fails where no
sequence is left. With WRITE-SAFE low a staged request is inhibited and leaves a periodic one waiting for WRITE-SAFE, and a
periodic request waits for it. Else the write begins, of the staged record first, or of the live one, which holds a verified
application whose report is awaited (notes/assumptions/19.md). -/
def Sys2Proof.Machine.attemptMade (c : Controller) : Controller :=
  if c.journal.stagedWaiting = false ∧ c.journal.periodicPending = false then c
  else if 4294967294 ≤ c.journal.newestSeq then { c with
    journal := { c.journal with periodicPending := false, stagedWaiting := false }
    inTransit := c.inTransit ++ [.commitFailedReport (if c.journal.stagedWaiting then .staged else .periodic)] }
  else match c.power.writeSafe, c.journal.stagedWaiting with
    | false, true => { c with
      journal := { c.journal with periodicPending := true, stagedWaiting := false, awaitingSafe := true }
      inTransit := c.inTransit ++ [.commitInhibitedReport] }
    | false, false => { c with journal := { c.journal with awaitingSafe := true } }
    | true, true => writeBegun .staged ((asImaged c).account.staged.getD (asImaged c).account.live) (asImaged c)
    | true, false => writeBegun .periodic (asImaged c).account.live (asImaged c)

/-- What the end of a write brings with clean memory: DECOMMISSION's erasure, which waits while WRITE-SAFE is low and drops
every request, else an owed reload, else the attempt of a waiting request. -/
def Sys2Proof.Machine.writeOver (c : Controller) : Controller :=
  if c.decommissioning = true then { c with journal := { c.journal with
    writeState := .erasing, slot := none, periodicPending := false, stagedWaiting := false, awaitingSafe := false
    reloadOwed := false, scan := none, erasureWaits := !c.power.writeSafe
    block := if c.power.writeSafe then .erased else c.journal.block } }
  else if c.journal.reloadOwed = true then { c with journal := { c.journal with
    reloadOwed := false, writeState := .scanning, scan := some .reload } }
  else attemptMade c

/-- A power-fail warning or the Journal's own day rollover is a periodic commit request. It is dropped while the account is
UNCOMMISSIONED, HELD or being decommissioned and during a scan; it waits while a write is in flight; taken with the commit slot
empty it brings a write attempt at once, which takes the live record, waits for WRITE-SAFE while that is low, and fails where no
sequence is left. `requestPeriodic`, by which the other statements ask for a commit, is the power-fail warning's effect.
WRITE-SAFE rising begins the erasure that waits for it, or the attempt that waits for it where the commit slot is empty, and
changes the level alone otherwise; falling changes the level alone. That a verified application whose report the account has not
taken is live before an image is taken is the model's choice (notes/assumptions/19.md), and so are a fall that lets an erasure
go on (49.md) and the arrival in transit (1.md). -/
def Obligations.PeriodicRequestsAndWriteSafe : Prop :=
  (∀ (i : Instr) (d : Nat) (s : State) (c : Controller),
    (i = .powerFailWarning ∧ c = s.ctl
      ∨ i = .dayRolloverJournal d ∧ c = { s.ctl with inTransit := s.ctl.inTransit.erase (.dayRolloverJournal d) }) →
    s.ctl.power.mainOn = true →
    ((s.ctl.account.live.commissioned = false ∨ s.ctl.decommissioning = true ∨ s.ctl.account.live.held = true
        ∨ s.ctl.journal.writeState = .scanning) → exec i s = .next { s with ctl := c })
    ∧ (s.ctl.account.live.commissioned = true → s.ctl.decommissioning = false → s.ctl.account.live.held = false →
        s.ctl.journal.writeState ≠ .scanning →
        (s.ctl.journal.slot.isSome = true ∨ s.ctl.journal.writeState ≠ .idle →
          exec i s = .next { s with ctl := { c with journal := { s.ctl.journal with periodicPending := true } } })
        ∧ (s.ctl.journal.slot = none → s.ctl.journal.writeState = .idle →
          (4294967294 ≤ s.ctl.journal.newestSeq ∨ s.ctl.power.writeSafe = false ∨ s.ctl.check.bad = [] →
            exec i s = .next { s with ctl := attemptMade { c with
              journal := { s.ctl.journal with periodicPending := true } } })
          ∧ (s.ctl.journal.newestSeq < 4294967294 → s.ctl.power.writeSafe = true → s.ctl.check.bad = [] →
            s.ctl.journal.stagedWaiting = false → reportAwaited s.ctl = false →
            exec i s = .next { s with ctl := writeBegun .periodic s.ctl.account.live c }))))
  ∧ (∀ s : State, s.ctl.power.mainOn = true → exec .powerFailWarning s = .next { s with ctl := requestPeriodic s.ctl })
  ∧ (∀ s : State, exec .writeSafeFall s = .next { s with ctl := { s.ctl with
      power := { s.ctl.power with writeSafe := false } } })
  ∧ (∀ s : State, s.ctl.power.mainOn = false ∨ (s.ctl.journal.erasureWaits = false ∧ s.ctl.journal.awaitingSafe = false) →
      exec .writeSafeRise s = .next { s with ctl := { s.ctl with power := { s.ctl.power with writeSafe := true } } })
  ∧ (∀ s : State, s.ctl.power.mainOn = true → s.ctl.journal.erasureWaits = true →
      exec .writeSafeRise s = .next { s with ctl := { s.ctl with
        power := { s.ctl.power with writeSafe := true }
        journal := { s.ctl.journal with erasureWaits := false, block := .erased } } })
  ∧ ∀ (s : State) (c : Controller), c = { s.ctl with
        power := { s.ctl.power with writeSafe := true }, journal := { s.ctl.journal with awaitingSafe := false } } →
      s.ctl.power.mainOn = true → s.ctl.journal.erasureWaits = false → s.ctl.journal.awaitingSafe = true →
      (s.ctl.journal.slot.isSome = true ∨ s.ctl.journal.writeState ≠ .idle → exec .writeSafeRise s = .next { s with ctl := c })
      ∧ (s.ctl.journal.slot = none → s.ctl.journal.writeState = .idle → s.ctl.check.bad = [] →
        exec .writeSafeRise s = .next { s with ctl := attemptMade c })

/-- The programming of a page, or of the commissioning block, is complete: the store holds what it was given with its
CRC-16, and the Journal verifies. Whether the store took the data is the command's operand, and where it did not the page or
block is one whose CRC fails: the model's choice (notes/assumptions/11.md). -/
def Obligations.ProgrammingComplete : Prop :=
  ∀ (s : State) (intact : Bool), s.ctl.power.mainOn = true → s.ctl.journal.writeState = .writing →
    (∀ m : Commit, s.ctl.journal.slot = some m → (∀ p a, s.ctl.journal.commissioning ≠ some (p, .block a)) →
      exec (.pageProgramDone intact) s = .next { s with ctl := { s.ctl with journal := { s.ctl.journal with
        pages := s.ctl.journal.pages.set m.target (if intact then pageOf m.image else .torn)
        writeState := .verifying } } })
    ∧ ∀ (p : Params) (a : Attempt), s.ctl.journal.commissioning = some (p, .block a) →
      exec (.pageProgramDone intact) s = .next { s with ctl := { s.ctl with journal := { s.ctl.journal with
        block := (if intact then blockOf p else .torn), writeState := .verifying } } }

/-- The Account Unit with the application whose commit is verified marked so. -/
def Sys2Proof.Machine.verifiedIn (m : Commit) (a : Account) : Account :=
  { a with flight := a.flight.map (fun f =>
      if m.kind = .staged ∧ m.overtaken = false then { f with verified := true } else f) }

/-- The Account Unit with a commit's report in transit known as one on an application that HELD has overtaken, if it is. -/
def Sys2Proof.Machine.reportKnown (m : Commit) (i : Instr) (a : Account) : Account :=
  { a with overtaken := if m.overtaken then a.overtaken ++ [i] else a.overtaken }

/-- The read-back of a page: a match verifies the commit, with a report to the Account Unit and one to the clock, none of them
under DECOMMISSION; a mismatch on the first attempt erases the page and writes the same image at the next; one on the retry
fails the commit. When the write has ended, DECOMMISSION's erasure or an owed reload comes first, else the next attempt of a
waiting request. The mark of the application whose commit is verified, and the reports known as overtaken, are the model's own
(notes/assumptions/28.md), and that a verified application is live before the next image is taken is its choice (19.md). That
DECOMMISSION silences the report to the clock too, so that the absence counter runs on, is its choice as well (46.md). -/
def Obligations.PageReadBack : Prop :=
  ∀ (s : State) (m : Commit) (i : Instr) (readTrue : Bool), s.ctl.power.mainOn = true →
    s.ctl.journal.writeState = .verifying → s.ctl.journal.slot = some m →
    i = (match m.kind with
      | .staged => .stagedCommitVerified m.image.reserve
      | .periodic => .periodicCommitVerified m.image.reserve) →
    (∀ p a, s.ctl.journal.commissioning ≠ some (p, .block a)) →
    (s.ctl.journal.periodicPending = false ∧ s.ctl.journal.stagedWaiting = false ∨ s.ctl.check.bad = []) →
    (readTrue = true → s.ctl.journal.pages.getD m.target .erased = pageOf m.image →
      ∀ j : Journal, j = { s.ctl.journal with
        newestPage := m.target, newestSeq := m.image.sequence, slot := none, writeState := .idle
        commissioning := afterFirstPage s.ctl.journal.commissioning } →
      (s.ctl.decommissioning = false → exec (.verifyDone readTrue) s = .next { s with ctl := writeOver { s.ctl with
        journal := j, account := reportKnown m i (verifiedIn m s.ctl.account)
        inTransit := s.ctl.inTransit ++ [i, .absenceReset] } })
      ∧ (s.ctl.decommissioning = true → exec (.verifyDone readTrue) s = .next { s with ctl := writeOver { s.ctl with
        journal := j, account := verifiedIn m s.ctl.account } }))
    ∧ ((readTrue = false ∨ s.ctl.journal.pages.getD m.target .erased ≠ pageOf m.image) →
      (m.attempt = .first → exec (.verifyDone readTrue) s = .next { s with ctl := { s.ctl with
        journal := { s.ctl.journal with
          pages := (s.ctl.journal.pages.set m.target .erased).set ((m.target + 1) % 16) .torn
          slot := some { m with attempt := .retry, target := (m.target + 1) % 16 }, writeState := .writing } } })
      ∧ ∀ j : Journal, j = { s.ctl.journal with
          pages := s.ctl.journal.pages.set m.target .erased, slot := none, writeState := .idle
          commissioning := afterFirstPage s.ctl.journal.commissioning } →
        m.attempt = .retry →
        (s.ctl.decommissioning = false → exec (.verifyDone readTrue) s = .next { s with ctl := writeOver { s.ctl with
          journal := j, account := reportKnown m (.commitFailedReport m.kind) s.ctl.account
          inTransit := s.ctl.inTransit ++ [.commitFailedReport m.kind] } })
        ∧ (s.ctl.decommissioning = true → exec (.verifyDone readTrue) s = .next { s with ctl := writeOver { s.ctl with
          journal := j } }))

/-- The read-back of the commissioning block: a mismatch writes it once more, a second one erases it and ends COMMISSION not
done; a match makes the station commissioned, with the record of R22 live and its first page being written, and an armed fault
kept (notes/assumptions/13.md). The new account state is known to the Meter and the keypad unit at once and goes out to the
switch, which is OPEN till then; the collections and slots are empty, the hailer, the asker and the keypad unit IDLE, and the
hail timer runs to a first delay of 1 ms to the hail period. The bad words of the account's region are gone, and those of the
store's stay, the latter the model's choice (47.md); so are a flash in progress ended (51.md) and the reports of applications
now gone known as overtaken (28.md). The arrival in transit and the evaluation number are its own (1.md, 16.md), and that the
switch alone learns the state by an arrival its reading (21.md). -/
def Obligations.CommissioningBlockReadBack : Prop :=
  ∀ (s : State) (p : Params) (a : Attempt) (readTrue : Bool), s.ctl.power.mainOn = true →
    s.ctl.journal.writeState = .verifying → s.ctl.journal.commissioning = some (p, .block a) →
    ((readTrue = false ∨ s.ctl.journal.block ≠ blockOf p) →
      (a = .first → exec (.verifyDone readTrue) s = .next { s with ctl := { s.ctl with journal := { s.ctl.journal with
        block := .torn, writeState := .writing, commissioning := some (p, .block .retry) } } })
      ∧ (a = .retry → exec (.verifyDone readTrue) s = .next { s with ctl := { s.ctl with journal := { s.ctl.journal with
        block := .erased, writeState := .idle, commissioning := some (p, .ended false) } } }))
    ∧ (readTrue = true → s.ctl.journal.block = blockOf p → ∀ (r : Record) (st : AccountState),
      r = {
        commissioned := true, owned := false, energy := 0, timeCredit := 0, lifeline := p.allowance
        lifelineDay := if s.ctl.clock.timeState = .unset then 0 else s.ctl.clock.day
        base := 0, marks := 0, counter := some 1, reserve := 16, lifetime := 0, bypass := 0
        lastStatus := if s.ctl.clock.timeState = .unset then 0 else s.ctl.clock.day, held := false } →
      st = (if p.allowance = 0 then .locked else .lifeline) →
      exec (.verifyDone readTrue) s = .next { s with ctl := { s.ctl with
        params := some p
        account := {
          live := r, staged := none, flight := none, state := st, pendingOwn := []
          conditions := if s.ctl.clock.timeState = .set then [] else [.timeUnset]
          metered := 0, statusOwed := false, pass := none, passDue := false
          overtaken := s.ctl.inTransit.filter ofStagedCommit }
        meter := {
          mode := .sampling, request := false, chargeRem := 0, lifetimeRem := 0, lastGood := 0, misses := 0
          band := .normal, lowRun := 0, recoveryRun := 0, known := st }
        switch := { state := .opened, timer := none, overRun := 0, known := .uncommissioned }
        store := {
          vouchers := List.replicate 48 none, receipts := List.replicate 48 none, retired := [], arrivals := 0, cursor := 0
          log := [] }
        exchange := {
          hailer := .idle, number := s.ctl.exchange.number, hailTimer := some (drawn 1 (p.hailPeriod * 1000) s.ctl)
          deferred := false, askWindow := none, windowExtended := false, askQueue := [], service := none, tookWait := none
          tally := s.ctl.exchange.tally, asker := .idle, outstanding := none, askDelay := none, carryTimer := none
          keptTook := none, suspended := false }
        radio := {
          active := true, rx := .doze, hold := none, reception := none, discards := s.ctl.radio.discards, sampling := false
          onAir := none }
        channel := { took := none, carry := none, ask := none, hail := none, backoff := none }
        journal := {
          pages := s.ctl.journal.pages.set 0 .torn, block := blockOf p, writeState := .writing
          slot := some {
            kind := .periodic, attempt := .first, target := 0, overtaken := false
            image := {
              sequence := 1, kit := p.kit, commissioned := true, owned := false, energy := 0, timeCredit := 0
              lifeline := r.lifeline, lifelineDay := r.lifelineDay, base := 0, marks := 0, reserve := 16, chargeRem := 0
              lifetimeRem := 0, lifetime := 0, bypass := 0, lastStatus := r.lastStatus } }
          periodicPending := false, stagedWaiting := false, awaitingSafe := false, newestPage := 15, newestSeq := 0
          reloadOwed := false, scan := none, erasureWaits := false, commissioning := some (p, .firstPage) }
        check := { s.ctl.check with bad := s.ctl.check.bad.filter (fun w => !inAccount w.unit) }
        keypad := {
          entry := .idle, buffer := [], interKey := false, answerWait := false, display := [], phase := none
          flashTimer := true, flash := false, known := st, evaluation := s.ctl.keypad.evaluation }
        inTransit := s.ctl.inTransit ++ [.accountStateToSwitch st]
        draws := s.ctl.draws + 1 } })

/-- The start's scan complete: the newest valid page forms the record, with the counter at its reserve, the time credit less the
deduction, 3,600 s at a COLD START and the absence at a MAIN START, and a stale lifeline refilled, and gives the Meter its
remainders; with no valid page the account is persistently HELD and the remainders are 0. A MAIN START's absence counter is 0
from then on. A counter at its reserve asks for a commit. That the persistently HELD record has its ownership flag clear is the
model's choice (notes/assumptions/42.md), and so are the condition set as given at the scan's end by the time state of that
moment (48.md), and the seconds of the scan wiped with the counter (14.md). -/
def Obligations.RecoveryScanFormsTheRecord : Prop :=
  (∀ c : Controller, (c.account.live.counter = some c.account.live.reserve → requestIfReserveReached c = requestPeriodic c)
    ∧ (c.account.live.counter ≠ some c.account.live.reserve → requestIfReserveReached c = c))
  ∧ ∀ (s : State) (p : Params) (d a : Nat), s.ctl.power.mainOn = true → cleanMemory s.ctl → s.ctl.params = some p →
    (s.ctl.journal.scan = some .cold ∧ d = 3600 ∧ a = s.ctl.clock.absence ∨ s.ctl.journal.scan = some (.main d) ∧ a = 0) →
    (∀ (n : Nat) (g : Image), newestValid p 0 s.ctl.journal.pages = some (n, g) →
      exec .recoveryScanComplete s = .next { s with ctl := requestIfReserveReached (derive { s.ctl with
        clock := { s.ctl.clock with absence := a }
        account := { s.ctl.account with
          staged := none
          live := {
            commissioned := g.commissioned, owned := g.owned, energy := g.energy, timeCredit := g.timeCredit - d
            lifeline := if s.ctl.clock.timeState ≠ .unset ∧ g.lifelineDay < s.ctl.clock.day then p.allowance else g.lifeline
            lifelineDay := if s.ctl.clock.timeState ≠ .unset ∧ g.lifelineDay < s.ctl.clock.day then s.ctl.clock.day
              else g.lifelineDay
            base := g.base, marks := g.marks, counter := some g.reserve, reserve := g.reserve, lifetime := g.lifetime
            bypass := g.bypass, lastStatus := g.lastStatus, held := false }
          conditions := if s.ctl.clock.timeState = .set then [] else [.timeUnset] }
        meter := { s.ctl.meter with chargeRem := g.chargeRem, lifetimeRem := g.lifetimeRem }
        journal := { s.ctl.journal with newestPage := n, newestSeq := g.sequence, writeState := .idle, scan := none } }) })
    ∧ (newestValid p 0 s.ctl.journal.pages = none →
      exec .recoveryScanComplete s = .next { s with ctl := derive { s.ctl with
        clock := { s.ctl.clock with absence := a }
        account := { s.ctl.account with
          staged := none
          live := {
            commissioned := true, owned := false, energy := 0, timeCredit := 0, lifeline := 0, lifelineDay := 0, base := 0
            marks := 0, counter := none, reserve := 0, lifetime := 0, bypass := 0, lastStatus := 0, held := true }
          conditions := if s.ctl.clock.timeState = .set then [.held] else [.held, .timeUnset] }
        meter := { s.ctl.meter with chargeRem := 0, lifetimeRem := 0 }
        journal := { s.ctl.journal with newestPage := 15, newestSeq := 0, writeState := .idle, scan := none } } })

/-- The values of a commissioning block lie in their ranges (R192). -/
def Sys2Proof.Machine.valuesInRange (p : Params) : Prop :=
  1 ≤ p.kit ∧ p.kit ≤ 99999999 ∧ p.key.length = 16 ∧ (p.wake = 500 ∨ p.wake = 1000 ∨ p.wake = 2000)
    ∧ 5 ≤ p.listenHold ∧ p.listenHold ≤ 255 ∧ 60 ≤ p.hailPeriod ∧ p.hailPeriod ≤ 900 ∧ p.hailPeriod % 10 = 0
    ∧ 2 ≤ p.hopLimit ∧ p.hopLimit ≤ 15 ∧ 1 ≤ p.burst ∧ p.burst ≤ 4 ∧ p.allowance ≤ 50 ∧ 1 ≤ p.cap ∧ p.cap ≤ 30
    ∧ p.lowThreshold ≤ 5000 ∧ 1 ≤ p.fallback ∧ p.fallback ≤ 200 ∧ 1200 ≤ p.relayCutoff ∧ p.relayCutoff ≤ 1600
    ∧ 7 ≤ p.receiptLife ∧ p.receiptLife ≤ 60 ∧ 1 ≤ p.reportInterval ∧ p.reportInterval ≤ 30

/-- The fields of a page's image are those of a commissioned account of this kit and lie in their ranges (R160). -/
def Sys2Proof.Machine.imageInRange (p : Params) (i : Image) : Prop :=
  1 ≤ i.sequence ∧ i.sequence ≤ 4294967294 ∧ i.kit = p.kit ∧ i.commissioned = true ∧ i.energy ≤ 999999
    ∧ i.timeCredit ≤ 34560000 ∧ i.lifeline ≤ p.allowance ∧ i.lifelineDay ≤ 65535 ∧ i.base ≤ 9999
    ∧ 16 ≤ i.reserve ∧ i.reserve ≤ 65536 ∧ i.reserve % 16 = 0 ∧ i.chargeRem ≤ 89999999 ∧ i.lifetimeRem ≤ 89999999
    ∧ i.lifetime ≤ 4294967295 ∧ i.bypass ≤ 65535 ∧ i.lastStatus ≤ 65535

/-- The page that the scan names is valid, no valid page of a greater sequence stands beside it, and where it names none no
page is valid. A page is valid exactly when it holds an image with the CRC-16 of its bytes, of this kit and commissioned, each
field in its range; a commissioning block is good exactly when it holds values in their ranges with the CRC-16 of their bytes.
The bytes of a page, and so its CRC-16, are the model's choice (notes/assumptions/11.md). -/
def Obligations.NewestValidPageIsNewest : Prop :=
  (∀ (p : Params) (g : Page), pageValid p g = true ↔ ∃ i : Image, g = pageOf i ∧ imageInRange p i)
  ∧ (∀ (b : Block) (p : Params), goodBlock b = some p ↔ b = blockOf p ∧ valuesInRange p)
  ∧ ∀ (p : Params) (l : List Page),
    (∀ (n : Nat) (g : Image), newestValid p 0 l = some (n, g) →
      l[n]? = some (pageOf g) ∧ pageValid p (pageOf g) = true
        ∧ ∀ (m : Nat) (k : Image) (crc : Check16), l[m]? = some (.holds k crc) → pageValid p (.holds k crc) = true →
          k.sequence ≤ g.sequence ∧ (k.sequence = g.sequence → n ≤ m))
    ∧ (newestValid p 0 l = none → ∀ g : Page, g ∈ l → pageValid p g = false)

/-- The reload complete: the recovered record replaces the live one without a deduction, with the counter at its reserve, and
HELD ends in flag and condition; the Meter keeps its remainders, the reached reserve asks for a commit, a STATUS owed is
released where a receipt can be made, and leaving HELD is a re-examination trigger. Where the list holds no entry but those
that owe a receipt, all stay, a STATUS owed stays owed, and the commit asked for is all that follows. With no valid page HELD
stays, the counter UNKNOWN, the other fields kept by the model's choice (notes/assumptions/31.md). That the commit is asked for
before the pass starts is the model's choice too (12.md). -/
def Obligations.ReloadEndsHeld : Prop :=
  ∀ (s : State) (p : Params), s.ctl.power.mainOn = true → cleanMemory s.ctl → s.ctl.params = some p →
    s.ctl.journal.scan = some .reload →
    (∀ (n : Nat) (g : Image) (d : Controller), newestValid p 0 s.ctl.journal.pages = some (n, g) →
      d = derive { s.ctl with
        account := { s.ctl.account with
          staged := none, conditions := setWithout .held s.ctl.account.conditions
          live := {
            commissioned := g.commissioned, owned := g.owned, energy := g.energy, timeCredit := g.timeCredit
            lifeline := if s.ctl.clock.timeState ≠ .unset ∧ g.lifelineDay < s.ctl.clock.day then p.allowance else g.lifeline
            lifelineDay := if s.ctl.clock.timeState ≠ .unset ∧ g.lifelineDay < s.ctl.clock.day then s.ctl.clock.day
              else g.lifelineDay
            base := g.base, marks := g.marks, counter := some g.reserve, reserve := g.reserve, lifetime := g.lifetime
            bypass := g.bypass, lastStatus := g.lastStatus, held := false } }
        journal := { s.ctl.journal with newestPage := n, newestSeq := g.sequence, writeState := .idle, scan := none } } →
      exec .reloadScanComplete s = .next { s with ctl := runDue (trigger (releaseStatus (requestPeriodic d))) }
      ∧ (s.ctl.account.flight = none → s.ctl.account.pass = none → s.ctl.decommissioning = false →
        s.ctl.journal.slot = none → (∀ e : PendingEntry, e ∈ s.ctl.account.pendingOwn → e.owed ≠ none) →
        ∀ b : Controller, b = attemptMade { d with journal := { d.journal with periodicPending := true } } →
        exec .reloadScanComplete s = .next { s with ctl := { b with account := { b.account with passDue := false } } }
        ∧ b.account = d.account))
    ∧ (newestValid p 0 s.ctl.journal.pages = none →
      exec .reloadScanComplete s = .next { s with ctl := { s.ctl with
        account := { s.ctl.account with live := { s.ctl.account.live with counter := none } }
        journal := { s.ctl.journal with newestPage := 15, newestSeq := 0, writeState := .idle, scan := none } } })
/-! ### The Account Unit (R20 to R46) -/

/-- The account takes its inputs: it is commissioned, no DECOMMISSION is in progress, and the memory is clean. -/
def Sys2Proof.Machine.accountOpen (c : Controller) : Prop :=
  c.power.mainOn = true ∧ cleanMemory c ∧ c.account.live.commissioned = true ∧ c.decommissioning = false

/-- Nothing waits on the account: no application in flight, no pending-own entry, no pass, no STATUS owed. -/
def Sys2Proof.Machine.accountQuiet (c : Controller) : Prop :=
  c.account.flight = none ∧ c.account.pendingOwn = [] ∧ c.account.pass = none ∧ c.account.passDue = false
    ∧ c.account.statusOwed = false

/-- A receipt of an ORDINARY station can be made under the serial `n`, and has the empty slot `k`. -/
def Sys2Proof.Machine.receiptRoom (c : Controller) (r : Record) (n k : Nat) : Prop :=
  r.held = false ∧ r.counter = some n ∧ n < r.reserve ∧ isAgent c = false ∧ emptySlot 0 (receiptView c) = some k

/-- A region's counts and capture after one error of a kind at an address, under a capture mode. -/
def Sys2Proof.Machine.regionAfter (mode : CaptureMode) (kind : ErrorKind) (a : Nat) (r : RegionCheck) : RegionCheck :=
  { corrected := match kind with
      | .single => min 255 (r.corrected + 1)
      | .double => r.corrected
    uncorrected := match kind with
      | .single => r.uncorrected
      | .double => min 15 (r.uncorrected + 1)
    capture := match mode, r.capture with
      | .first, some k => some k
      | _, _ => some { address := a, kind := kind } }

/-- The receipt that a station makes: the outcome of a voucher under the next serial, with the account's record, conditions
and counts as they stand. -/
def Sys2Proof.Machine.ownReceipt (o : ReceiptOutcome) (unchecked : Bool) (voucherSerial n : Nat) (r : Record)
    (set : List Condition) (c : Controller) : Receipt :=
  { origin := ownKit c, serial := n, created := if c.clock.timeState = .unset then 0 else c.clock.day
    outcome := o, unchecked := unchecked, voucherSerial := voucherSerial, state := deriveState (lowThreshold c) r
    energy := r.energy, hours := r.timeCredit / 3600, lifetime := r.lifetime, conditions := set, bypass := r.bypass
    corrected := min 255 (c.check.store.corrected + c.check.account.corrected)
    uncorrected := min 15 (c.check.store.uncorrected + c.check.account.uncorrected)
    discards := c.radio.discards, hop := 0 }

/-- A serial is DUPLICATE at the base or below it or where it is marked, AHEAD more than 32 above the base, ELIGIBLE else. The
window after a voucher is applied: the serials settled are those settled before and the voucher's own, and the mark above the
new base is clear. -/
def Obligations.MarkedSerialIsSettledForGood : Prop :=
  (∀ (base : Nat) (marks : Marks) (n : Nat),
    (classify base marks n = .duplicate ↔ n ≤ base ∨ base < n ∧ marks.getLsbD (n - base - 1) = true)
    ∧ (classify base marks n = .ahead ↔ base + 32 < n)
    ∧ (classify base marks n = .eligible ↔ base < n ∧ n ≤ base + 32 ∧ marks.getLsbD (n - base - 1) = false))
  ∧ ∀ (base : Nat) (marks : Marks) (n : Nat), classify base marks n = .eligible →
    (markSerial base marks n).2.getLsbD 0 = false
      ∧ ∀ m : Nat, classify (markSerial base marks n).1 (markSerial base marks n).2 m = .duplicate ↔
        (m = n ∨ classify base marks m = .duplicate)

/-- The account state is that of the first condition that holds: UNCOMMISSIONED without the commissioned flag, HELD, OWNED,
TIMED with time credit, CREDITED with energy above the low threshold, LOW with energy, LIFELINE with lifeline, else LOCKED; a
state derived anew is known to the Meter and the keypad unit at once and goes out to the Switch Controller, and one derived
equal changes nothing. A second event lowers the time credit of a TIMED account by a second, in the live and the staged record;
a whole hour consumed asks for a commit and marks a re-examination trigger; in every other state it changes nothing. That the
commit is asked for before the pass starts is the model's choice (notes/assumptions/12.md), the arrival in transit its own
(1.md), and that the Switch Controller alone learns the state by an arrival its reading (21.md). -/
def Obligations.SecondEventCountsTimeCreditDown : Prop :=
  (∀ (low : Nat) (r : Record),
    (r.commissioned = false → deriveState low r = .uncommissioned)
    ∧ (r.commissioned = true → r.held = true → deriveState low r = .held)
    ∧ (r.commissioned = true → r.held = false →
      (r.owned = true → deriveState low r = .owned)
      ∧ (r.owned = false →
        (0 < r.timeCredit → deriveState low r = .timed)
        ∧ (r.timeCredit = 0 →
          (low < r.energy → deriveState low r = .credited)
          ∧ (0 < r.energy → r.energy ≤ low → deriveState low r = .low)
          ∧ (r.energy = 0 → 0 < r.lifeline → deriveState low r = .lifeline)
          ∧ (r.energy = 0 → r.lifeline = 0 → deriveState low r = .locked)))))
  ∧ (∀ c : Controller,
    (deriveState (lowThreshold c) c.account.live = c.account.state → derive c = c)
    ∧ ∀ st : AccountState, st = deriveState (lowThreshold c) c.account.live → st ≠ c.account.state → derive c = { c with
      account := { c.account with state := st }, meter := { c.meter with known := st }
      keypad := { c.keypad with known := st }, inTransit := c.inTransit ++ [.accountStateToSwitch st] })
  ∧ ∀ s : State, s.ctl.power.mainOn = true → cleanMemory s.ctl →
    ((s.ctl.account.live.commissioned = false ∨ s.ctl.decommissioning = true
        ∨ deriveState (lowThreshold s.ctl) s.ctl.account.live ≠ .timed) →
      exec .secondEventAccount s = .next { s with ctl := arrive .secondEventAccount s.ctl })
    ∧ (s.ctl.decommissioning = false → deriveState (lowThreshold s.ctl) s.ctl.account.live = .timed →
      ((s.ctl.account.live.timeCredit - 1) % 3600 ≠ 0 →
        exec .secondEventAccount s = .next { s with ctl := derive { arrive .secondEventAccount s.ctl with
          account := { s.ctl.account with
            live := { s.ctl.account.live with timeCredit := s.ctl.account.live.timeCredit - 1 }
            staged := s.ctl.account.staged.map (fun r => { r with timeCredit := r.timeCredit - 1 }) } } })
      ∧ ((s.ctl.account.live.timeCredit - 1) % 3600 = 0 →
        exec .secondEventAccount s = .next { s with ctl := runDue (trigger (requestPeriodic (derive
          { arrive .secondEventAccount s.ctl with
            account := { s.ctl.account with
              live := { s.ctl.account.live with timeCredit := s.ctl.account.live.timeCredit - 1 }
              staged := s.ctl.account.staged.map (fun r => { r with timeCredit := r.timeCredit - 1 }) } }))) }))

/-- A record with 1 Wh taken: from the energy balance while it is above 0, else from the lifeline, else from nothing. -/
def Sys2Proof.Machine.oneWhTaken (r : Record) : Record :=
  { r with
    energy := r.energy - 1
    lifeline := if r.energy = 0 then r.lifeline - 1 else r.lifeline }

/-- The metered count raised by 1 up to 5. -/
def Sys2Proof.Machine.meteredAfter (n : Nat) : Nat := if n < 5 then n + 1 else n

/-- A charge report takes 1 Wh from the energy balance, else from the lifeline, else from nothing, of each record by its own
fields, and derives the state; lowering a field of either record (notes/assumptions/12.md, the model's choice) it raises the
metered count up to 5, the fifth asking for a commit; lowering the live energy, by the same choice that alone, it marks a
re-examination trigger, which on a quiet account comes to nothing, the commit being asked for first, the model's choice too. A
lifetime report raises lifetime energy by 1 Wh up to its stop, in both records, and the metered count; a bypass report raises
the bypass count up to its stop, in both records, and BYPASS: `raise`, by which it does so, is the effect of a reported
condition, with the STATUS that this calls for. -/
def Obligations.MeterReportsAtTheAccount : Prop :=
  ∀ s : State, accountOpen s.ctl →
    (∀ d : Controller, d = derive { arrive .chargeReport s.ctl with
        account := { s.ctl.account with
          live := oneWhTaken s.ctl.account.live, staged := s.ctl.account.staged.map oneWhTaken } } →
      ((oneWhTaken s.ctl.account.live = s.ctl.account.live ∧ s.ctl.account.staged.map oneWhTaken = s.ctl.account.staged) →
        exec .chargeReport s = .next { s with ctl := d })
      ∧ ∀ e : Controller,
        (oneWhTaken s.ctl.account.live ≠ s.ctl.account.live ∨ s.ctl.account.staged.map oneWhTaken ≠ s.ctl.account.staged) →
        e = (if s.ctl.account.metered = 4 then requestPeriodic else id)
          { d with account := { d.account with metered := meteredAfter s.ctl.account.metered } } →
        (s.ctl.account.live.energy = 0 → exec .chargeReport s = .next { s with ctl := e })
        ∧ (0 < s.ctl.account.live.energy → exec .chargeReport s = .next { s with ctl := runDue (trigger e) })
        ∧ (s.ctl.account.live.held = false → accountQuiet s.ctl → runDue (trigger e) = e))
    ∧ exec .lifetimeReport s = .next { s with ctl :=
      (if s.ctl.account.metered = 4 then requestPeriodic else id) { arrive .lifetimeReport s.ctl with
        account := { s.ctl.account with
          live := { s.ctl.account.live with lifetime := min 4294967295 (s.ctl.account.live.lifetime + 1) }
          staged := s.ctl.account.staged.map (fun r => { r with lifetime := min 4294967295 (r.lifetime + 1) })
          metered := meteredAfter s.ctl.account.metered } } }
    ∧ exec .bypassReport s = .next { s with ctl := raise .bypass { arrive .bypassReport s.ctl with
        account := { s.ctl.account with
          live := { s.ctl.account.live with bypass := min 65535 (s.ctl.account.live.bypass + 1) }
          staged := s.ctl.account.staged.map (fun r => { r with bypass := min 65535 (r.bypass + 1) }) } } }
    ∧ (s.ctl.account.conditions.contains .bypass = true ∨ s.ctl.clock.timeState = .unset
        ∨ s.ctl.account.live.lastStatus = s.ctl.clock.day →
      exec .bypassReport s = .next { s with ctl := { arrive .bypassReport s.ctl with
        account := { s.ctl.account with
          live := { s.ctl.account.live with bypass := min 65535 (s.ctl.account.live.bypass + 1) }
          staged := s.ctl.account.staged.map (fun r => { r with bypass := min 65535 (r.bypass + 1) })
          conditions := setWith .bypass s.ctl.account.conditions } } })

/-- The code of a condition, by the table of R42. -/
def Sys2Proof.Machine.tableCode : Condition → Nat
  | .held => 13
  | .storeFault => 12
  | .bypass => 11
  | .journalFault => 10
  | .senseLost => 9
  | .timeUnset => 8
  | .overrange => 7
  | .tripped => 6
  | .voucherRefused => 5
  | .relaySuspended => 4
  | .senseHold => 3
  | .corrected => 2
  | .storeFull => 1

/-- A condition whose code is 10 or more is urgent. A condition reported enters the set; one that is not urgent, is pending
already, or finds the time UNSET or a STATUS of today calls for nothing more. `raise`, by which the other statements raise a
condition, is that report's effect. A supply band back to NORMAL takes RELAY-SUSPENDED
out of the set, a good sample SENSE-HOLD and SENSE-LOST, a time state of SET TIME-UNSET; any other time state changes nothing.
Of a set, a STATUS receipt's reporting step, `stateConditions`, keeps the state conditions alone. -/
def Obligations.ConditionReportRaisesIt : Prop :=
  (∀ x : Condition, isUrgent x = true ↔ 10 ≤ tableCode x)
  ∧ (∀ (l : List Condition) (y : Condition), (stateConditions l).contains y = true ↔ l.contains y = true
    ∧ (y = .held ∨ y = .journalFault ∨ y = .senseLost ∨ y = .timeUnset ∨ y = .relaySuspended ∨ y = .senseHold))
  ∧ ∀ s : State, s.ctl.power.mainOn = true →
    (∀ x : Condition, exec (.conditionReport (.raised x)) s =
      .next { s with ctl := raise x (arrive (.conditionReport (.raised x)) s.ctl) })
    ∧ (∀ x : Condition, (isUrgent x = false ∨ s.ctl.account.conditions.contains x = true ∨ s.ctl.clock.timeState = .unset
        ∨ s.ctl.check.bad = [] ∧ s.ctl.account.live.lastStatus = s.ctl.clock.day) →
      exec (.conditionReport (.raised x)) s = .next { s with ctl := { arrive (.conditionReport (.raised x)) s.ctl with
        account := { s.ctl.account with conditions := setWith x s.ctl.account.conditions } } })
    ∧ exec (.conditionReport .bandNormal) s = .next { s with ctl := { arrive (.conditionReport .bandNormal) s.ctl with
        account := { s.ctl.account with conditions := setWithout .relaySuspended s.ctl.account.conditions } } }
    ∧ (∀ x y : Condition, ∀ l : List Condition,
      ((setWith x l).contains y = true ↔ y = x ∨ l.contains y = true)
        ∧ ((setWithout x l).contains y = true ↔ y ≠ x ∧ l.contains y = true))
    ∧ (s.ctl.account.live.commissioned = true → s.ctl.decommissioning = false →
      exec .goodSampleReport s = .next { s with ctl := { arrive .goodSampleReport s.ctl with
        account := { s.ctl.account with
          conditions := setWithout .senseLost (setWithout .senseHold s.ctl.account.conditions) } } })
    ∧ exec (.timeStateReport .set) s = .next { s with ctl := { arrive (.timeStateReport .set) s.ctl with
        account := { s.ctl.account with conditions := setWithout .timeUnset s.ctl.account.conditions } } }
    ∧ ∀ st : TimeState, st ≠ .set →
      exec (.timeStateReport st) s = .next { s with ctl := arrive (.timeStateReport st) s.ctl }

/-- The slot `k` that an own receipt takes in a table: the first empty one, or, in a full table, that of the foreign receipt of
the greatest hop, else of the earliest own STATUS, else of the earliest own receipt. -/
def Sys2Proof.Machine.ownPlace (l : List (Option ReceiptEntry)) (k : Nat) (full : Bool) : Prop :=
  (full = false ∧ l[k]? = some none ∧ ∀ j : Nat, j < k → l[j]? ≠ some none)
  ∨ full = true ∧ none ∉ l ∧ ∃ e : ReceiptEntry, l[k]? = some (some e)
    ∧ (e.own = false ∧ (∀ (j : Nat) (f : ReceiptEntry), l[j]? = some (some f) → f.own = false →
        f.receipt.hop < e.receipt.hop ∨ f.receipt.hop = e.receipt.hop ∧ (e.arrival < f.arrival ∨ e.arrival = f.arrival ∧ k ≤ j))
      ∨ (∀ f : ReceiptEntry, some f ∈ l → f.own = true)
        ∧ (e.receipt.outcome = .status ∧ (∀ (j : Nat) (f : ReceiptEntry), l[j]? = some (some f) → f.receipt.outcome = .status →
            e.arrival < f.arrival ∨ e.arrival = f.arrival ∧ k ≤ j)
          ∨ (∀ f : ReceiptEntry, some f ∈ l → f.receipt.outcome ≠ .status)
            ∧ ∀ (j : Nat) (f : ReceiptEntry), l[j]? = some (some f) → e.arrival < f.arrival ∨ e.arrival = f.arrival ∧ k ≤ j))

/-- The own receipts of a table with their slots, earliest first. -/
def Sys2Proof.Machine.ownInOrder (l : List (Option ReceiptEntry)) (m : List (Nat × ReceiptEntry)) : Prop :=
  m.Pairwise (fun x y => x.2.arrival < y.2.arrival ∨ x.2.arrival = y.2.arrival ∧ x.1 < y.1)
    ∧ ∀ (n : Nat) (e : ReceiptEntry), (n, e) ∈ m ↔ l[n]? = some (some e) ∧ e.own = true

/-- The Controller with own receipts moved to the collection log, as far as it has room: each leaves the table, is appended
and has its key retired. -/
def Sys2Proof.Machine.movedToLog (m : List (Nat × ReceiptEntry)) (c : Controller) : Controller :=
  let moved := m.take (256 - c.store.log.length)
  { c with store := { c.store with
      receipts := moved.foldl (fun l x => l.set x.1 none) c.store.receipts
      log := c.store.log ++ moved.map (fun x => x.2.receipt)
      retired := moved.foldl (fun l x => retiredWith (receiptKey x.2.receipt) l) c.store.retired } }

/-- An urgent condition first raised makes a STATUS receipt at once: it carries the account as it stands and the set with the
condition, takes the next serial and a slot, and its reporting step clears the event conditions, the counts and the discards.
With no empty slot it displaces the foreign receipt of the greatest hop, else the earliest own STATUS, else the earliest own
receipt, and STORE-FULL is reported. At an AGENT station the own receipts move on to the collection log, earliest first, while
it has room, and their keys are retired. A counter that has come to its reserve asks for a commit. Where no receipt can be made,
under HELD or with the counter at the reserve or UNKNOWN, the STATUS is owed, and one that is owed already stays so. That
STORE-FULL from the STATUS's own place is pending after it, and that the commit is asked for when the last status day is set,
are the model's choices (notes/assumptions/44.md and 37.md). -/
def Obligations.UrgentConditionMakesAStatus : Prop :=
  (∀ (s : State) (x : Condition) (n k : Nat), accountOpen s.ctl → s.ctl.account.statusOwed = false → isUrgent x = true →
    s.ctl.account.conditions.contains x = false → s.ctl.clock.timeState ≠ .unset →
    s.ctl.account.live.lastStatus ≠ s.ctl.clock.day → receiptRoom s.ctl s.ctl.account.live n k →
    exec (.conditionReport (.raised x)) s = .next { s with ctl := requestIfReserveReached {
      arrive (.conditionReport (.raised x)) s.ctl with
      account := { s.ctl.account with
        live := { s.ctl.account.live with counter := some (n + 1), lastStatus := s.ctl.clock.day }
        staged := s.ctl.account.staged.map (fun r =>
          { r with counter := r.counter.map (· + 1), lastStatus := s.ctl.clock.day })
        conditions := stateConditions (setWith x s.ctl.account.conditions) }
      store := { s.ctl.store with
        receipts := s.ctl.store.receipts.set k (some {
          receipt := ownReceipt .status false 0 n s.ctl.account.live (setWith x s.ctl.account.conditions) s.ctl
          arrival := s.ctl.store.arrivals, own := true })
        arrivals := min 4294967295 (s.ctl.store.arrivals + 1) }
      check := { s.ctl.check with
        store := { s.ctl.check.store with corrected := 0, uncorrected := 0 }
        account := { s.ctl.check.account with corrected := 0, uncorrected := 0 } }
      radio := { s.ctl.radio with discards := 0 } } })
  ∧ (∀ (s : State) (x : Condition), accountOpen s.ctl → isUrgent x = true → s.ctl.account.conditions.contains x = false →
    s.ctl.clock.timeState ≠ .unset → s.ctl.account.live.lastStatus ≠ s.ctl.clock.day →
    (s.ctl.account.statusOwed = true ∨ s.ctl.account.live.held = true
      ∨ ∀ n : Nat, s.ctl.account.live.counter = some n → s.ctl.account.live.reserve ≤ n) →
    exec (.conditionReport (.raised x)) s = .next { s with ctl := { arrive (.conditionReport (.raised x)) s.ctl with
      account := { s.ctl.account with conditions := setWith x s.ctl.account.conditions, statusOwed := true } } })
  ∧ ∀ (s : State) (x : Condition) (n k : Nat) (full : Bool) (m : List (Nat × ReceiptEntry)) (b : Controller),
    accountOpen s.ctl → s.ctl.account.statusOwed = false → isUrgent x = true →
    s.ctl.account.conditions.contains x = false → s.ctl.clock.timeState ≠ .unset →
    s.ctl.account.live.lastStatus ≠ s.ctl.clock.day → s.ctl.account.live.held = false →
    s.ctl.account.live.counter = some n → n < s.ctl.account.live.reserve →
    ownPlace s.ctl.store.receipts k full →
    b = { s.ctl with
      account := { s.ctl.account with
        live := { s.ctl.account.live with counter := some (n + 1), lastStatus := s.ctl.clock.day }
        staged := s.ctl.account.staged.map (fun r =>
          { r with counter := r.counter.map (· + 1), lastStatus := s.ctl.clock.day })
        conditions := stateConditions (setWith x s.ctl.account.conditions) }
      store := { s.ctl.store with
        receipts := s.ctl.store.receipts.set k (some {
          receipt := ownReceipt .status false 0 n s.ctl.account.live (setWith x s.ctl.account.conditions) s.ctl
          arrival := s.ctl.store.arrivals, own := true })
        arrivals := min 4294967295 (s.ctl.store.arrivals + 1) }
      check := { s.ctl.check with
        store := { s.ctl.check.store with corrected := 0, uncorrected := 0 }
        account := { s.ctl.check.account with corrected := 0, uncorrected := 0 } }
      radio := { s.ctl.radio with discards := 0 }
      inTransit := s.ctl.inTransit.erase (.conditionReport (.raised x))
        ++ (if full then [.conditionReport (.raised .storeFull)] else []) } →
    (isAgent s.ctl = false → exec (.conditionReport (.raised x)) s = .next { s with ctl := requestIfReserveReached b })
    ∧ (isAgent s.ctl = true → s.ctl.store.receipts.length = 48 → ownInOrder b.store.receipts m →
      exec (.conditionReport (.raised x)) s = .next { s with ctl := requestIfReserveReached (movedToLog m b) })

/-- A record with a voucher's effect, its serial marked and the base advanced. -/
def Sys2Proof.Machine.withVoucher (v : Voucher) (r : Record) : Record :=
  { r with
    energy := if v.kind = 1 then r.energy + v.amount else if v.kind = 4 then 0 else r.energy
    timeCredit := if v.kind = 2 then r.timeCredit + 3600 * v.amount else if v.kind = 4 then 0 else r.timeCredit
    owned := if v.kind = 3 then true else if v.kind = 4 then false else r.owned
    base := (markSerial r.base r.marks v.serial).1
    marks := (markSerial r.base r.marks v.serial).2 }

/-- An entry with its use-by day reconstructed while the day is known. -/
def Sys2Proof.Machine.entryNow (c : Controller) (e : PendingEntry) : PendingEntry :=
  { e with voucher := { e.voucher with useBy := useByNow c.clock.timeState c.clock.day e.voucher.useBy } }

/-- What an examination finds of an entry that owes nothing: `none` where its voucher is applicable. Else the entry as
it is afterwards where it makes no receipt (BADTAG, BADFORM, EXPIRED and the APPLIED of an in-commit entry owe one, AHEAD and
FULL stay, DUPLICATE leaves), and whether it is refused. -/
def Sys2Proof.Machine.foundOf (c : Controller) (e : PendingEntry) : Option (Option PendingEntry × Bool) :=
  let x := entryNow c e
  let owing := fun (o : ReceiptOutcome) (unchecked : Bool) => { x with inCommit := false, owed := some ⟨o, unchecked⟩ }
  if tagMatches (ownKey c) x.voucher = false then some (some (owing .badTag false), true)
  else if voucherWellFormed x.voucher = false then some (some (owing .badForm false), true)
  else match classify c.account.live.base c.account.live.marks e.voucher.serial, e.inCommit with
    | .duplicate, true => some (some (owing .applied (!decide (c.clock.timeState = .set))), false)
    | .duplicate, false => some (none, false)
    | .ahead, false => some (some x, false)
    | _, _ =>
      if c.clock.timeState = .set ∧ fullUseBy x.voucher.useBy < c.clock.day then some (some (owing .expired false), true)
      else if (e.voucher.kind = 1 ∧ 999999 < c.account.live.energy + e.voucher.amount)
          ∨ (e.voucher.kind = 2 ∧ 34560000 < c.account.live.timeCredit + 3600 * e.voucher.amount) then
        some (some { x with inCommit := false }, false)
      else none

/-- The entry as a pass leaves it while no receipt can be made: one that owes a receipt is passed over. -/
def Sys2Proof.Machine.afterPass (c : Controller) (e : PendingEntry) : Option PendingEntry :=
  match e.owed, foundOf c e with
  | none, some (x, _) => x
  | _, _ => some e

/-- The condition set after a pass over some entries: VOUCHER-REFUSED enters it where one is refused. -/
def Sys2Proof.Machine.conditionsAfter (c : Controller) (l : List PendingEntry) : List Condition :=
  if l.any (fun e => decide (e.owed = none) && decide ((foundOf c e).map (·.2) = some true)) then
    setWith .voucherRefused c.account.conditions
  else c.account.conditions

/-- A day rollover at the account refills the lifeline to the allowance in both records with the new lifeline day and
derives the state; a periodic STATUS that is due and cannot be made is owed; and it is a re-examination trigger, whatever the
pending-own list holds. The pass goes through the list in ascending serial order and passes over the entries that owe a receipt.
Until the first applicable entry, which is staged and ends it for the time, it keeps each entry, lets it go or refuses it; with
no applicable entry it ends. Where a receipt can be made, a refused entry makes it at once and leaves the list, and a counter that has come to its reserve
asks for a commit. While HELD
stands the refill is made too, and, where the record does not read, without the STATUS. That an in-commit
entry found AHEAD is examined on is the model's reading (notes/assumptions/18.md). That a day rollover under HELD reads the record
once, and that with a double error in it the refill and the trigger are made and the STATUS is not, is its choice (10.md). -/
def Obligations.DayRolloverRefillsTheLifeline : Prop :=
  (∀ (s : State) (p : Params) (d : Nat), accountOpen s.ctl → s.ctl.params = some p → accountQuiet s.ctl →
    s.ctl.account.live.held = false →
    (d < s.ctl.account.live.lastStatus + p.reportInterval →
      exec (.dayRolloverAccount d) s = .next { s with ctl := derive { arrive (.dayRolloverAccount d) s.ctl with
        account := { s.ctl.account with
          live := { s.ctl.account.live with lifeline := p.allowance, lifelineDay := d }
          staged := s.ctl.account.staged.map (fun r => { r with lifeline := p.allowance, lifelineDay := d }) } } })
    ∧ (s.ctl.account.live.lastStatus + p.reportInterval ≤ d → s.ctl.account.live.counter = some s.ctl.account.live.reserve →
      exec (.dayRolloverAccount d) s = .next { s with ctl := derive { arrive (.dayRolloverAccount d) s.ctl with
        account := { s.ctl.account with
          live := { s.ctl.account.live with lifeline := p.allowance, lifelineDay := d }
          staged := s.ctl.account.staged.map (fun r => { r with lifeline := p.allowance, lifelineDay := d })
          statusOwed := true } } }))
  ∧ (∀ (s : State) (p : Params) (d : Nat), s.ctl.power.mainOn = true → s.ctl.account.live.commissioned = true →
    s.ctl.decommissioning = false → s.ctl.params = some p → accountQuiet s.ctl → s.ctl.account.live.held = true →
    s.ctl.check.armed = none →
    (s.ctl.check.bad = [] → exec (.dayRolloverAccount d) s = .next { s with ctl := derive { arrive (.dayRolloverAccount d) s.ctl with
      account := { s.ctl.account with
        live := { s.ctl.account.live with lifeline := p.allowance, lifelineDay := d }
        staged := s.ctl.account.staged.map (fun r => { r with lifeline := p.allowance, lifelineDay := d })
        statusOwed := decide (s.ctl.account.live.lastStatus + p.reportInterval ≤ d), passDue := true } } })
    ∧ ∀ (w : BadWord) (b1 b2 : Nat), s.ctl.check.bad = [w] → w.unit = .account → w.flips = [b1, b2] →
      exec (.dayRolloverAccount d) s = .next { s with ctl := derive { arrive (.dayRolloverAccount d) s.ctl with
        account := { s.ctl.account with
          live := { s.ctl.account.live with lifeline := p.allowance, lifelineDay := d }
          staged := s.ctl.account.staged.map (fun r => { r with lifeline := p.allowance, lifelineDay := d })
          passDue := true }
        check := { s.ctl.check with
          account := regionAfter (captureMode s.ctl) .double w.address s.ctl.check.account } } })
  ∧ (∀ (s : State) (p : Params) (d : Nat), accountOpen s.ctl → s.ctl.params = some p →
    d < s.ctl.account.live.lastStatus + p.reportInterval →
    exec (.dayRolloverAccount d) s = .next { s with ctl := runDue (trigger (derive { arrive (.dayRolloverAccount d) s.ctl with
      account := { s.ctl.account with
        live := { s.ctl.account.live with lifeline := p.allowance, lifelineDay := d }
        staged := s.ctl.account.staged.map (fun r => { r with lifeline := p.allowance, lifelineDay := d }) } })) })
  ∧ ∀ c : Controller, accountOpen c → c.account.live.held = false → c.account.flight = none → c.account.pass = none →
    c.account.pendingOwn.length ≤ 4 →
    c.account.pendingOwn.Pairwise (fun x y => x.voucher.serial < y.voucher.serial) →
    (∀ e : PendingEntry, e ∈ c.account.pendingOwn → e.unexamined = false ∧ e.answerTo = none) →
    ((∀ n : Nat, c.account.live.counter = some n → c.account.live.reserve ≤ n) →
      ((∀ e : PendingEntry, e ∈ c.account.pendingOwn → e.owed = none → foundOf c e ≠ none) →
        runDue (trigger c) = { c with account := { c.account with
          pendingOwn := c.account.pendingOwn.filterMap (afterPass c)
          conditions := conditionsAfter c c.account.pendingOwn, passDue := false } })
      ∧ ∀ (l m : List PendingEntry) (e : PendingEntry) (b : Controller), c.account.pendingOwn = l ++ e :: m →
        (∀ x : PendingEntry, x ∈ l → x.owed = none → foundOf c x ≠ none) → e.owed = none → foundOf c e = none →
        c.journal.writeState ≠ .scanning →
        b = { c with
          account := { c.account with
            pendingOwn := l.filterMap (afterPass c) ++ { entryNow c e with inCommit := false } :: m
            staged := some (withVoucher e.voucher c.account.live)
            flight := some {
              voucher := (entryNow c e).voucher, unchecked := !decide (c.clock.timeState = .set), answerTo := none
              verified := false }
            conditions := conditionsAfter c l, passDue := false
            pass := some (e.voucher.serial :: ((l.filter (fun x => decide (x.owed = none))).map (·.voucher.serial)).reverse) }
          journal := { c.journal with stagedWaiting := true } } →
        (c.journal.slot = none → c.journal.writeState = .idle → runDue (trigger c) = attemptMade b)
        ∧ (c.journal.slot.isSome = true ∨ c.journal.writeState ≠ .idle → runDue (trigger c) = b))
    ∧ ∀ (e x : PendingEntry) (l : List PendingEntry) (o : Owed) (n k : Nat), c.account.pendingOwn = e :: l →
      e.owed = none → foundOf c e = some (some x, true) → x.owed = some o → (∀ y : PendingEntry, y ∈ l → y.owed ≠ none) →
      receiptRoom c c.account.live n k →
      runDue (trigger c) = requestIfReserveReached { c with
        account := { c.account with
          live := { c.account.live with counter := some (n + 1) }
          staged := c.account.staged.map (fun r => { r with counter := r.counter.map (· + 1) })
          pendingOwn := l, conditions := setWith .voucherRefused c.account.conditions, passDue := false }
        store := { c.store with
          vouchers := vouchersWithout ⟨.voucher, ownKit c, e.voucher.serial⟩ c.store.vouchers
          receipts := c.store.receipts.set k (some {
            receipt := ownReceipt o.outcome o.unchecked e.voucher.serial n c.account.live
              (setWith .voucherRefused c.account.conditions) c
            arrival := c.store.arrivals, own := true })
          retired := retiredWith ⟨.voucher, ownKit c, e.voucher.serial⟩ c.store.retired
          arrivals := min 4294967295 (c.store.arrivals + 1) } }

/-- A staged commit verified: the staged record goes live under the page's reserve, and its voucher's APPLIED receipt is
made with the next serial, retires the voucher's key and is answered APPLIED; the staged record is absent; and a counter that
has come to its reserve asks for a commit. A report on an
application that HELD has overtaken, or that finds no application in flight with a verified commit, changes nothing: that
mark, and the overtaken reports, are the model's own (notes/assumptions/28.md). That the receipt shows no JOURNAL-FAULT is the
model's choice (notes/assumptions/29.md), and so is a record that an image taken before the report has made live already
(notes/assumptions/19.md). -/
def Obligations.VerifiedApplicationGoesLive : Prop :=
  (∀ (s : State) (reserve : Nat), s.ctl.power.mainOn = true →
    (s.ctl.account.overtaken.contains (.stagedCommitVerified reserve) = true →
      exec (.stagedCommitVerified reserve) s = .next { s with ctl := { arrive (.stagedCommitVerified reserve) s.ctl with
        account := { s.ctl.account with overtaken := s.ctl.account.overtaken.erase (.stagedCommitVerified reserve) } } })
    ∧ (accountOpen s.ctl → s.ctl.account.overtaken.contains (.stagedCommitVerified reserve) = false →
      (∀ f : Flight, s.ctl.account.flight = some f → f.verified = false) →
      exec (.stagedCommitVerified reserve) s = .next { s with ctl := arrive (.stagedCommitVerified reserve) s.ctl }))
  ∧ ∀ (s : State) (f : Flight) (r : Record) (n k reserve : Nat), accountOpen s.ctl → s.ctl.account.live.held = false →
    s.ctl.account.flight = some f → f.verified = true →
    (s.ctl.account.staged = some r ∨ s.ctl.account.staged = none ∧ s.ctl.account.live = r) → s.ctl.account.pendingOwn = [] →
    s.ctl.account.statusOwed = false → s.ctl.account.pass = none → r.commissioned = true →
    s.ctl.account.overtaken.contains (.stagedCommitVerified reserve) = false →
    receiptRoom s.ctl { r with reserve := reserve } n k →
    ∃ t : State, exec (.stagedCommitVerified reserve) s = .next t ∧ t.pending = s.pending
      ∧ t.ctl.account.live = { r with reserve := reserve, counter := some (n + 1) }
      ∧ t.ctl.account.staged = none ∧ t.ctl.account.flight = none ∧ t.ctl.account.metered = 0
      ∧ t.ctl.account.pendingOwn = []
      ∧ t.ctl.account.conditions = setWithout .journalFault s.ctl.account.conditions
      ∧ t.ctl.account.state = deriveState (lowThreshold s.ctl) { r with reserve := reserve }
      ∧ t.ctl.store.receipts = s.ctl.store.receipts.set k (some {
          receipt := ownReceipt .applied f.unchecked f.voucher.serial n { r with reserve := reserve }
            (setWithout .journalFault s.ctl.account.conditions) s.ctl
          arrival := s.ctl.store.arrivals, own := true })
      ∧ t.ctl.store.retired = retiredWith ⟨.voucher, ownKit s.ctl, f.voucher.serial⟩ s.ctl.store.retired
      ∧ (∀ m : Nat, f.answerTo = some m → .outcomeAnswer m .applied ∈ t.ctl.inTransit)
      ∧ t.ctl.power = s.ctl.power ∧ t.ctl.params = s.ctl.params ∧ t.ctl.switch = s.ctl.switch
      ∧ t.ctl.clock = s.ctl.clock ∧ t.ctl.exchange = s.ctl.exchange ∧ t.ctl.radio = s.ctl.radio
      ∧ t.ctl.channel = s.ctl.channel ∧ t.ctl.check = s.ctl.check
      ∧ t.ctl.service = s.ctl.service ∧ t.ctl.store.log = s.ctl.store.log
      ∧ t.ctl.journal = (requestIfReserveReached { s.ctl with account := t.ctl.account }).journal

/-- A periodic commit verified: JOURNAL-FAULT is cleared, the metered count returns to 0 and the page's reserve becomes
the live one, in both records; without a commissioned account nothing changes, and by the model's choice nothing under HELD
either (notes/assumptions/38.md). The receipts that entries of
the list owe are then made, in ascending serial order, each retiring its voucher's key and removing its entry, and after them
the STATUS that is owed; a counter that has come to its reserve asks for a commit. -/
def Obligations.VerifiedPeriodicCommit : Prop :=
  (∀ (s : State) (reserve : Nat), s.ctl.power.mainOn = true →
    s.ctl.account.live.commissioned = false ∨ s.ctl.decommissioning = true ∨ s.ctl.account.live.held = true →
    exec (.periodicCommitVerified reserve) s = .next { s with ctl := arrive (.periodicCommitVerified reserve) s.ctl })
  ∧ ∀ (s : State) (reserve : Nat) (a : Account), accountOpen s.ctl → s.ctl.account.live.held = false →
    a = { s.ctl.account with
      live := { s.ctl.account.live with reserve := reserve }
      staged := s.ctl.account.staged.map (fun r => { r with reserve := reserve })
      conditions := setWithout .journalFault s.ctl.account.conditions, metered := 0 } →
    (s.ctl.account.statusOwed = false → (∀ e : PendingEntry, e ∈ s.ctl.account.pendingOwn → e.owed = none) →
      exec (.periodicCommitVerified reserve) s =
        .next { s with ctl := { arrive (.periodicCommitVerified reserve) s.ctl with account := a } })
    ∧ (∀ (e : PendingEntry) (l : List PendingEntry) (o : Owed) (n k : Nat), s.ctl.account.statusOwed = false →
      s.ctl.account.pendingOwn = e :: l → e.owed = some o → isFinal o.outcome = true →
      (∀ x : PendingEntry, x ∈ l → x.owed = none ∧ x.voucher.serial ≠ e.voucher.serial) →
      receiptRoom s.ctl a.live n k →
      exec (.periodicCommitVerified reserve) s = .next { s with ctl := requestIfReserveReached {
        arrive (.periodicCommitVerified reserve) s.ctl with
        account := { a with
          live := { a.live with counter := some (n + 1) }
          staged := a.staged.map (fun r => { r with counter := r.counter.map (· + 1) })
          pendingOwn := l }
        store := { s.ctl.store with
          vouchers := vouchersWithout ⟨.voucher, ownKit s.ctl, e.voucher.serial⟩ s.ctl.store.vouchers
          receipts := s.ctl.store.receipts.set k (some {
            receipt := ownReceipt o.outcome o.unchecked e.voucher.serial n a.live a.conditions s.ctl
            arrival := s.ctl.store.arrivals, own := true })
          retired := retiredWith ⟨.voucher, ownKit s.ctl, e.voucher.serial⟩ s.ctl.store.retired
          arrivals := min 4294967295 (s.ctl.store.arrivals + 1) } } })
    ∧ ∀ (e f : PendingEntry) (o u : Owed) (n : Nat) (l : List (Option ReceiptEntry)), s.ctl.account.statusOwed = true →
      s.ctl.account.pendingOwn = [e, f] → e.owed = some o → f.owed = some u → isFinal o.outcome = true →
      isFinal u.outcome = true → e.voucher.serial ≠ f.voucher.serial →
      s.ctl.store.receipts = none :: none :: none :: l → isAgent s.ctl = false →
      s.ctl.account.live.counter = some n → n + 3 < reserve →
      ∃ t : State, exec (.periodicCommitVerified reserve) s = .next t ∧ t.ctl.account.pendingOwn = []
        ∧ t.ctl.account.statusOwed = false ∧ t.ctl.account.live.counter = some (n + 3)
        ∧ t.ctl.account.conditions = stateConditions a.conditions
        ∧ ∃ x y z : ReceiptEntry, t.ctl.store.receipts = some x :: some y :: some z :: l
          ∧ x.receipt = ownReceipt o.outcome o.unchecked e.voucher.serial n a.live a.conditions s.ctl
          ∧ y.receipt = ownReceipt u.outcome u.unchecked f.voucher.serial (n + 1) a.live a.conditions s.ctl
          ∧ z.receipt = ownReceipt .status false 0 (n + 2) a.live a.conditions s.ctl

/-- A staged commit inhibited or failed leaves the live record as it was, discards the staged one and keeps the voucher in
the pending-own list, answered PENDING; where the list holds an entry of the same serial, that entry stays as it is, and where
the list refuses the voucher, it is answered NOT-TAKEN. A failure raises JOURNAL-FAULT first, with the STATUS that this may call
for, `raise` being the effect of a reported condition, and a failed periodic commit does that alone, whether or not an application is in flight. A report on an application that HELD has overtaken changes nothing but
the model's own note of it (notes/assumptions/28.md), and a failed periodic commit nothing while HELD is set, the model's choice
(notes/assumptions/38.md). -/
def Obligations.AbandonedApplicationStaysPending : Prop :=
  (∀ (s : State) (i : Instr), (i = .commitInhibitedReport ∨ i = .commitFailedReport .staged) → s.ctl.power.mainOn = true →
    s.ctl.account.overtaken.contains i = true → exec i s = .next { s with ctl := { arrive i s.ctl with
      account := { s.ctl.account with overtaken := s.ctl.account.overtaken.erase i } } })
  ∧ (∀ s : State, s.ctl.power.mainOn = true → s.ctl.account.overtaken.contains (.commitFailedReport .periodic) = false →
    ((s.ctl.account.live.held = true ∨ s.ctl.account.live.commissioned = false ∨ s.ctl.decommissioning = true) →
      exec (.commitFailedReport .periodic) s = .next { s with ctl := arrive (.commitFailedReport .periodic) s.ctl })
    ∧ (s.ctl.account.live.held = false → s.ctl.account.live.commissioned = true → s.ctl.decommissioning = false →
      exec (.commitFailedReport .periodic) s =
        .next { s with ctl := raise .journalFault (arrive (.commitFailedReport .periodic) s.ctl) }
      ∧ ((s.ctl.account.conditions.contains .journalFault = true ∨ s.ctl.clock.timeState = .unset
          ∨ s.ctl.check.bad = [] ∧ s.ctl.account.live.lastStatus = s.ctl.clock.day) →
        exec (.commitFailedReport .periodic) s = .next { s with ctl := { arrive (.commitFailedReport .periodic) s.ctl with
          account := { s.ctl.account with conditions := setWith .journalFault s.ctl.account.conditions } } })))
  ∧ ∀ (s : State) (i : Instr) (f : Flight) (b : Controller), accountOpen s.ctl → s.ctl.account.live.held = false →
    s.ctl.account.flight = some f → s.ctl.account.overtaken.contains i = false →
    (i = .commitInhibitedReport ∧ b = { s.ctl with inTransit := s.ctl.inTransit.erase i }
      ∨ i = .commitFailedReport .staged ∧ b = raise .journalFault { s.ctl with inTransit := s.ctl.inTransit.erase i }
        ∧ (f.verified = false ∨ s.ctl.account.conditions.contains .journalFault = true ∨ s.ctl.clock.timeState = .unset
          ∨ s.ctl.account.live.lastStatus = s.ctl.clock.day)) →
    (∀ e : PendingEntry, entryWith f.voucher.serial s.ctl.account.pendingOwn = some e →
      exec i s = .next { s with ctl := runDue (endExamination { b with
        account := { b.account with staged := none, flight := none }
        inTransit := b.inTransit ++ (match f.answerTo with
          | none => []
          | some m => [.outcomeAnswer m .pending]) }) })
    ∧ (entryWith f.voucher.serial s.ctl.account.pendingOwn = none → s.ctl.account.pass = none → s.ctl.account.passDue = false →
      (∀ e : PendingEntry, e ∈ s.ctl.account.pendingOwn → e.unexamined = false) →
      ∀ (l : List PendingEntry) (a : Answer),
        (s.ctl.account.pendingOwn.length < 4 ∧ a = .pending
            ∧ l = insertEntry ⟨f.voucher, false, false, false, none, none⟩ s.ctl.account.pendingOwn
          ∨ (∃ e : PendingEntry, 4 ≤ s.ctl.account.pendingOwn.length ∧ s.ctl.account.pendingOwn.getLast? = some e
            ∧ (f.voucher.serial < e.voucher.serial ∧ a = .pending
                ∧ l = insertEntry ⟨f.voucher, false, false, false, none, none⟩ s.ctl.account.pendingOwn.dropLast
              ∨ e.voucher.serial ≤ f.voucher.serial ∧ a = .notTaken ∧ l = s.ctl.account.pendingOwn))) →
        exec i s = .next { s with ctl := { b with
          account := { b.account with staged := none, flight := none, pendingOwn := l }
          inTransit := b.inTransit ++ (match f.answerTo with
            | none => []
            | some m => [.outcomeAnswer m a]) } })

/-! ### The Meter (R47 to R68) -/

/-- A remainder with a sample's energy added, less the quantum where that is reached (R56, R57). -/
def Sys2Proof.Machine.remainderAfter (rem energy : Nat) : Nat :=
  if 90000000 ≤ rem + energy then rem + energy - 90000000 else rem + energy

/-- The report that a quantum has been reached. -/
def Sys2Proof.Machine.quantumReport (rem energy : Nat) (i : Instr) : List Instr := if 90000000 ≤ rem + energy then [i] else []

/-- The Controller as a sample is judged: where the second events in transit to the Switch Controller are enough to end its trip
hold, they are taken, and the switch is set from the account state last known (R76). -/
def Sys2Proof.Machine.atJudging (c : Controller) : Controller :=
  if c.switch.state = .tripHold ∧ c.switch.timer.getD 0 < c.inTransit.count .secondEventSwitch then { c with
    switch := { c.switch with state := if allowedState c.switch.known then .closed else .opened, timer := none }
    inTransit := c.inTransit.filter (fun i => decide (i ≠ .secondEventSwitch)) }
  else c

/-- A second event at the Meter sends one request while SAMPLING, and none while IDLE; a stray byte on the sense line, and a
reply or a window's end without a request in flight, change nothing. A sample is missed by a reply whose check byte fails, by
the end of its window, or by a second event while SAMPLING that finds its request in flight and sends the next. Under every
account state and switch position the miss count then rises to its stop and the last good product, or from the eleventh miss the
fallback rate with the switch CLOSED and 0 otherwise, enters the lifetime remainder; with the load charged for it enters the
charge remainder too; each quantum reached is taken off and reported; under LIFELINE with the switch CLOSED a verdict against
the cap follows; no bypass is reported, and the last good product and the supply band runs stand. The switch is as a second
event that ends a trip hold leaves it: that such an event still in transit is taken first is how the model keeps R76
(notes/assumptions/25.md). -/
def Obligations.RequestsAndMissedSamples : Prop :=
  (∀ s : State, s.ctl.power.mainOn = true →
    (s.ctl.meter.mode = .sampling → s.ctl.meter.request = false →
      exec .secondEventMeter s = .next { s with ctl := { arrive .secondEventMeter s.ctl with
        meter := { s.ctl.meter with request := true } } })
    ∧ (s.ctl.meter.mode = .idle → exec .secondEventMeter s = .next { s with ctl := arrive .secondEventMeter s.ctl })
    ∧ (∀ b : Byte, exec (.straySenseByte b) s = .next s)
    ∧ (s.ctl.meter.request = false → exec .replyWindowExpiry s = .next s)
    ∧ (s.ctl.meter.request = false → ∀ b1 b2 b3 b4 : Byte, exec (.sampleReply b1 b2 b3 b4) s = .next s))
  ∧ ∀ (s : State) (i : Instr) (asks : Bool) (c : Controller) (p : Params) (P : Nat) (charged lifeline : Prop)
    [Decidable charged] [Decidable lifeline] (m : Meter) (reports : List Instr),
    s.ctl.power.mainOn = true → s.ctl.meter.request = true → s.ctl.params = some p →
    ((i = .replyWindowExpiry ∨ ∃ b1 b2 b3 b4 : Byte, i = .sampleReply b1 b2 b3 b4
        ∧ b4.toNat ≠ 255 - (b1.toNat + b2.toNat + b3.toNat) % 256) ∧ asks = false ∧ c = atJudging s.ctl
      ∨ i = .secondEventMeter ∧ s.ctl.meter.mode = .sampling ∧ asks = true
        ∧ c = atJudging (arrive .secondEventMeter s.ctl)) →
    P = (if s.ctl.meter.misses < 10 then s.ctl.meter.lastGood
      else if c.switch.state = .closed then p.fallback * 25000 else 0) →
    (charged ↔ c.switch.state = .closed
      ∧ (s.ctl.meter.known = .credited ∨ s.ctl.meter.known = .low ∨ s.ctl.meter.known = .lifeline)) →
    (lifeline ↔ c.switch.state = .closed ∧ s.ctl.meter.known = .lifeline) →
    m = { s.ctl.meter with
      request := asks, misses := min 11 (s.ctl.meter.misses + 1)
      lifetimeRem := remainderAfter s.ctl.meter.lifetimeRem P
      chargeRem := if charged then remainderAfter s.ctl.meter.chargeRem P else s.ctl.meter.chargeRem } →
    reports = [.conditionReport (.raised (if s.ctl.meter.misses < 10 then .senseHold else .senseLost))]
      ++ quantumReport s.ctl.meter.lifetimeRem P .lifetimeReport
      ++ (if charged then quantumReport s.ctl.meter.chargeRem P .chargeReport else [])
      ++ (if lifeline then [.capVerdict (if p.cap * 25000 < P then .over else .within)] else []) →
    exec i s = .next { s with ctl := { c with meter := m, inTransit := c.inTransit ++ reports } }

/-- A good sample, under every account state and switch position: a saturated count is reported as OVERRANGE; its product enters
the lifetime remainder; with the load charged for (CREDITED, LOW or LIFELINE, the switch CLOSED) it enters the charge remainder
too; with the load free (OWNED or TIMED) it does not; with the load forbidden, current above the dead-band is reported as a
bypass; each quantum reached is taken off and reported; under LIFELINE a verdict against the cap follows; the close makes the
product the last good one, ends the run of misses and judges the supply band. The switch is as a second event that ends a trip
hold leaves it: that such an event still in transit is taken first is how the model keeps R76 (notes/assumptions/25.md). -/
def Obligations.GoodSamples : Prop :=
  ∀ (s : State) (c : Controller) (p : Params) (b1 b2 b3 b4 : Byte) (I V P : Nat) (charged lifeline forbidden : Prop)
    [Decidable charged] [Decidable lifeline] [Decidable forbidden],
    s.ctl.power.mainOn = true → s.ctl.meter.request = true → s.ctl.params = some p → c = atJudging s.ctl →
    b4.toNat = 255 - (b1.toNat + b2.toNat + b3.toNat) % 256 → I = b1.toNat * 16 + b2.toNat / 16 →
    V = b2.toNat % 16 * 256 + b3.toNat → P = (if I ≤ 4 then 0 else I) * V →
    (charged ↔ c.switch.state = .closed
      ∧ (s.ctl.meter.known = .credited ∨ s.ctl.meter.known = .low ∨ s.ctl.meter.known = .lifeline)) →
    (lifeline ↔ c.switch.state = .closed ∧ s.ctl.meter.known = .lifeline) →
    (forbidden ↔ c.switch.state ≠ .closed ∨ s.ctl.meter.known = .locked ∨ s.ctl.meter.known = .held
      ∨ s.ctl.meter.known = .uncommissioned) →
    exec (.sampleReply b1 b2 b3 b4) s = .next { s with ctl := bandStage V { c with
      meter := { s.ctl.meter with
        request := false, lastGood := P, misses := 0, lifetimeRem := remainderAfter s.ctl.meter.lifetimeRem P
        chargeRem := if charged then remainderAfter s.ctl.meter.chargeRem P else s.ctl.meter.chargeRem }
      inTransit := c.inTransit
        ++ (if I = 4095 ∨ V = 4095 then [.conditionReport (.raised .overrange)] else [])
        ++ (if forbidden ∧ 4 < I then [.bypassReport] else [])
        ++ quantumReport s.ctl.meter.lifetimeRem P .lifetimeReport
        ++ (if charged then quantumReport s.ctl.meter.chargeRem P .chargeReport else [])
        ++ (if lifeline then [.capVerdict (if p.cap * 25000 < P then .over else .within)] else [])
        ++ [.goodSampleReport] } }

/-- The supply band: the sixtieth count in a row below the cutoff suspends relaying and reports RELAY-SUSPENDED; the
sixtieth in a row at the cutoff plus 50 or above ends that; any other count raises the run that its band counts by 1, or
returns it to 0. -/
def Obligations.SupplyBandTurnsAtSixty : Prop :=
  ∀ (c : Controller) (v : Nat),
    (c.meter.band = .normal → v < relayCutoff c → c.meter.lowRun = 59 →
      bandStage v c = { c with
        meter := { c.meter with band := .low, lowRun := 0 }, exchange := { c.exchange with suspended := true }
        inTransit := c.inTransit ++ [.conditionReport (.raised .relaySuspended)] })
    ∧ (c.meter.band = .low → relayCutoff c + 50 ≤ v → c.meter.recoveryRun = 59 →
      bandStage v c = { c with
        meter := { c.meter with band := .normal, recoveryRun := 0 }, exchange := { c.exchange with suspended := false }
        inTransit := c.inTransit ++ [.conditionReport .bandNormal] })
    ∧ (c.meter.band = .normal → v < relayCutoff c → c.meter.lowRun < 59 →
      bandStage v c = { c with meter := { c.meter with lowRun := c.meter.lowRun + 1 } })
    ∧ (c.meter.band = .low → v < relayCutoff c + 50 →
      bandStage v c = { c with meter := { c.meter with recoveryRun := 0 } })
    ∧ (c.meter.band = .normal → relayCutoff c ≤ v →
      bandStage v c = { c with meter := { c.meter with lowRun := 0 } })
    ∧ (c.meter.band = .low → relayCutoff c + 50 ≤ v → c.meter.recoveryRun < 59 →
      bandStage v c = { c with meter := { c.meter with recoveryRun := c.meter.recoveryRun + 1 } })

/-! ### The switch (R69 to R76) -/

/-- A new account state at the switch closes it if the state is allowed and opens it if not, cancelling a trip hold; the
over-cap run returns to 0 at a cancelled hold and on leaving LIFELINE. -/
def Obligations.AccountStateDrivesTheSwitch : Prop :=
  ∀ (s : State) (st : AccountState), s.ctl.power.mainOn = true →
    (st = s.ctl.switch.known →
      exec (.accountStateToSwitch st) s = .next { s with ctl := arrive (.accountStateToSwitch st) s.ctl })
    ∧ (st ≠ s.ctl.switch.known → s.ctl.account.live.commissioned = true → s.ctl.decommissioning = false →
      exec (.accountStateToSwitch st) s = .next { s with ctl := { arrive (.accountStateToSwitch st) s.ctl with
        switch := {
          state := if st = .owned ∨ st = .timed ∨ st = .credited ∨ st = .low ∨ st = .lifeline then .closed else .opened
          timer := none, known := st
          overRun := if s.ctl.switch.state = .tripHold ∨ s.ctl.switch.known = .lifeline then 0 else s.ctl.switch.overRun } } })
    ∧ (st ≠ s.ctl.switch.known → (s.ctl.account.live.commissioned = false ∨ s.ctl.decommissioning = true) →
      exec (.accountStateToSwitch st) s = .next { s with ctl := { arrive (.accountStateToSwitch st) s.ctl with
        switch := { state := .opened, timer := none, known := st, overRun := 0 } } })

/-- A cap verdict is taken while the switch is CLOSED under LIFELINE: WITHIN returns the run to 0, OVER advances it, and
the third OVER in a row trips the switch for 60 second events and reports TRIPPED; any other verdict is discarded. A second
event lowers the timer of a trip hold; one that finds it at 0 ends the hold, with the switch set from the account
state last known. A second event outside a hold changes nothing. The arrivals in transit are the model's own
(notes/assumptions/1.md), and so is the reading that TRIP_HOLD_END is the second event that ends a hold
(notes/assumptions/9.md). -/
def Obligations.TripAndHold : Prop :=
  (∀ (s : State) (v : CapVerdict), s.ctl.power.mainOn = true →
    ((s.ctl.switch.state ≠ .closed ∨ s.ctl.switch.known ≠ .lifeline ∨ s.ctl.decommissioning = true) →
      exec (.capVerdict v) s = .next { s with ctl := arrive (.capVerdict v) s.ctl })
    ∧ (s.ctl.switch.state = .closed → s.ctl.switch.known = .lifeline → s.ctl.decommissioning = false →
      (v = .within → exec (.capVerdict v) s = .next { s with ctl := { arrive (.capVerdict v) s.ctl with
        switch := { s.ctl.switch with overRun := 0 } } })
      ∧ (v = .over → s.ctl.switch.overRun < 2 → exec (.capVerdict v) s = .next { s with ctl :=
        { arrive (.capVerdict v) s.ctl with switch := { s.ctl.switch with overRun := s.ctl.switch.overRun + 1 } } })
      ∧ (v = .over → s.ctl.switch.overRun = 2 → exec (.capVerdict v) s = .next { s with ctl := { s.ctl with
        switch := { s.ctl.switch with state := .tripHold, timer := some 60, overRun := 0 }
        inTransit := s.ctl.inTransit.erase (.capVerdict v) ++ [.conditionReport (.raised .tripped)] } })))
  ∧ ∀ s : State, s.ctl.power.mainOn = true →
    (∀ n : Nat, s.ctl.switch.state = .tripHold → s.ctl.switch.timer = some (n + 1) →
      exec .secondEventSwitch s = .next { s with ctl := { arrive .secondEventSwitch s.ctl with
        switch := { s.ctl.switch with timer := some n } } })
    ∧ (s.ctl.switch.state = .tripHold → s.ctl.switch.timer = some 0 →
      ∀ i : Instr, i = .secondEventSwitch ∨ i = .tripHoldEnd →
        exec i s = .next { s with ctl := { arrive .secondEventSwitch s.ctl with
          switch := { s.ctl.switch with
            state := if allowedState s.ctl.switch.known then .closed else .opened, timer := none } } })
    ∧ (s.ctl.switch.state ≠ .tripHold →
      exec .secondEventSwitch s = .next { s with ctl := arrive .secondEventSwitch s.ctl }
        ∧ exec .tripHoldEnd s = .next s)

/-! ### The District Clock (R82 to R94) -/

/-- The events of one whole second, in the order handed on: a rollover to a day at a midnight, and the second event. -/
def Sys2Proof.Machine.secondEvents (rolls : Option Nat) : List Instr :=
  (match rolls with
    | none => []
    | some d => [.dayRolloverAccount d, .dayRolloverStore d, .dayRolloverJournal d])
    ++ [.secondEventAccount, .secondEventSwitch, .secondEventMeter]

/-- A candidate one second on: its second of day rises, a midnight raises its day, and the last moment of the epoch stands. -/
def Sys2Proof.Machine.candidateAfter (q : Candidate) : Candidate :=
  if q.second < 86399 then { q with second := q.second + 1 }
  else if q.day < 65535 then { q with day := q.day + 1, second := 0 } else q

/-- A whole second: the absence counter rises to its stop, the second of day advances, a midnight raises the day and gives a
rollover unless the time is UNSET, and the last moment of the epoch stands; events are emitted while the main domain is powered.
A candidate's time advances by the same second. A report of a verified commit returns the absence counter to 0. The order in
which the events go out, the rollovers to the account, the store and the Journal and then the second events, the Switch
Controller's before the Meter's as R76 has it, is the model's (notes/assumptions/25.md), and so is the arrival in transit
(1.md). -/
def Obligations.WholeSecondPasses : Prop :=
  ∀ s : State, s.ctl.power.alwaysOn = true →
    (s.ctl.clock.second < 86399 → exec .wholeSecond s = .next { s with ctl := { s.ctl with
      clock := { s.ctl.clock with
        second := s.ctl.clock.second + 1, subSecond := 0, absence := min 34560000 (s.ctl.clock.absence + 1)
        candidate := s.ctl.clock.candidate.map candidateAfter }
      inTransit := s.ctl.inTransit ++ if s.ctl.power.mainOn then secondEvents none else [] } })
    ∧ (s.ctl.clock.second = 86399 → s.ctl.clock.day < 65535 → exec .wholeSecond s = .next { s with ctl := { s.ctl with
      clock := { s.ctl.clock with
        day := s.ctl.clock.day + 1, second := 0, subSecond := 0, absence := min 34560000 (s.ctl.clock.absence + 1)
        candidate := s.ctl.clock.candidate.map candidateAfter }
      inTransit := s.ctl.inTransit ++ if s.ctl.power.mainOn then
        secondEvents (if s.ctl.clock.timeState = .unset then none else some (s.ctl.clock.day + 1)) else [] } })
    ∧ (s.ctl.clock.second = 86399 → s.ctl.clock.day = 65535 → exec .wholeSecond s = .next { s with ctl := { s.ctl with
      clock := { s.ctl.clock with
        subSecond := 0, absence := min 34560000 (s.ctl.clock.absence + 1)
        candidate := s.ctl.clock.candidate.map candidateAfter }
      inTransit := s.ctl.inTransit ++ if s.ctl.power.mainOn then secondEvents none else [] } })
    ∧ (s.ctl.power.mainOn = true → exec .absenceReset s = .next { s with ctl := { arrive .absenceReset s.ctl with
      clock := { s.ctl.clock with absence := 0 } } })

/-- The Controller with the time set: the rollover goes out when the time was UNSET or the day grew, the report of the new
time state when it changed. -/
def Sys2Proof.Machine.timeSetTo (d n : Nat) (st : TimeState) (c : Controller) : Controller :=
  { c with
    clock := { c.clock with day := d, second := n, subSecond := 0, timeState := st, candidate := none }
    inTransit := c.inTransit
      ++ (if c.clock.timeState = .unset ∨ c.clock.day < d then
            [.dayRolloverAccount d, .dayRolloverStore d, .dayRolloverJournal d] else [])
      ++ (if c.clock.timeState = st then [] else [.timeStateReport st]) }

/-- A usable agent hail sets an UNSET or PROVISIONAL clock to the later of its time and the clock's own, and steps a SET
one forward when it is more than 2 s ahead; a hail not usable, and any hail of a time not ahead by that, leaves it. A usable
ordinary hail while UNSET fills or replaces the candidate, or, from another peer within 600 s of it, sets the time
PROVISIONAL at the later of the two times and the clock's own; in the other time states it changes nothing. The arrivals in
transit, and the order of a rollover and the time report there, are the model's own (notes/assumptions/1.md and 25.md). -/
def Obligations.HailsSetTheTime : Prop :=
  (∀ (s : State) (k d n : Nat), s.ctl.power.mainOn = true → s.ctl.radio.active = true →
    (s.ctl.clock.timeState ≠ .set → d ≤ 65535 → n ≤ 86399 →
      exec (.hailTimeArrival k true true d n) s = .next { s with ctl := (
        let c := arrive (.hailTimeArrival k true true d n) s.ctl
        if s.ctl.clock.day * 86400 + s.ctl.clock.second ≤ d * 86400 + n then timeSetTo d n .set c
        else timeSetTo s.ctl.clock.day s.ctl.clock.second .set c) })
    ∧ (s.ctl.clock.timeState = .set → d ≤ 65535 → n ≤ 86399 →
      exec (.hailTimeArrival k true true d n) s = .next { s with ctl := (
        let c := arrive (.hailTimeArrival k true true d n) s.ctl
        if s.ctl.clock.day * 86400 + s.ctl.clock.second + 2 < d * 86400 + n then timeSetTo d n .set c else c) })
    ∧ ∀ (g u : Bool), (u = false ∨ 65535 < d ∨ 86399 < n ∨ (g = false ∧ s.ctl.clock.timeState ≠ .unset)) →
      exec (.hailTimeArrival k g u d n) s = .next { s with ctl := arrive (.hailTimeArrival k g u d n) s.ctl })
  ∧ ∀ (s : State) (k d n : Nat) (c : Controller), s.ctl.power.mainOn = true → s.ctl.radio.active = true →
    d ≤ 65535 → n ≤ 86399 → c = arrive (.hailTimeArrival k false true d n) s.ctl →
    (s.ctl.clock.timeState ≠ .unset → exec (.hailTimeArrival k false true d n) s = .next { s with ctl := c })
    ∧ (s.ctl.clock.timeState = .unset →
      (∀ q : Candidate, s.ctl.clock.candidate = some q → q.peer = k ∨ d * 86400 + n + 600 < q.day * 86400 + q.second
        ∨ q.day * 86400 + q.second + 600 < d * 86400 + n) →
      exec (.hailTimeArrival k false true d n) s = .next { s with ctl := { c with
        clock := { s.ctl.clock with candidate := some { peer := k, day := d, second := n } } } })
    ∧ ∀ (q : Candidate) (D N : Nat), s.ctl.clock.timeState = .unset → s.ctl.clock.candidate = some q → q.peer ≠ k →
      d * 86400 + n ≤ q.day * 86400 + q.second + 600 → q.day * 86400 + q.second ≤ d * 86400 + n + 600 →
      D = (if q.day * 86400 + q.second ≤ d * 86400 + n then d else q.day) →
      N = (if q.day * 86400 + q.second ≤ d * 86400 + n then n else q.second) →
      exec (.hailTimeArrival k false true d n) s = .next { s with ctl := (
        if s.ctl.clock.day * 86400 + s.ctl.clock.second ≤ D * 86400 + N then timeSetTo D N .provisional c
        else timeSetTo s.ctl.clock.day s.ctl.clock.second .provisional c) }

/-! ### The Relay Store (R95 to R117) -/

/-- The keys of the voucher table's entries whose use-by day is before `d`, in slot order. -/
def Sys2Proof.Machine.expiredKeys (d : Nat) (l : List (Option VoucherEntry)) : List ItemKey :=
  l.filterMap (fun e => (e.filter (fun v => decide (fullUseBy v.voucher.useBy < d))).map (fun v => voucherKey v.voucher))

/-- The receipt table with the entries of created day 0 stamped with `d`. -/
def Sys2Proof.Machine.stampedTable (d : Nat) (l : List (Option ReceiptEntry)) : List (Option ReceiptEntry) :=
  l.map (Option.map (fun e => if e.receipt.created = 0 then { e with receipt := { e.receipt with created := d } } else e))

/-- The keys of a receipt table's entries whose created day plus the lifetime is before `d`, in slot order. -/
def Sys2Proof.Machine.agedKeys (d life : Nat) (l : List (Option ReceiptEntry)) : List ItemKey :=
  l.filterMap (fun e => (e.filter (fun r => decide (r.receipt.created + life < d))).map (fun r => receiptKey r.receipt))

/-- A day rollover at the store removes the vouchers whose use-by day is past, stamps the receipts of created day 0 and
removes those past their lifetime, each removed key retired in slot order; everything else stands. A key retired joins the end
of the retired-key list, from which the oldest goes where it holds 32, and a key that it holds keeps its place. The arrival in
transit is the model's own (notes/assumptions/1.md). -/
def Obligations.DayRolloverSweepsAndAges : Prop :=
  (∀ (k : ItemKey) (l : List ItemKey), (k ∈ l → retiredWith k l = l)
    ∧ (k ∉ l → l.length < 32 → retiredWith k l = l ++ [k]) ∧ (k ∉ l → 32 ≤ l.length → retiredWith k l = l.tail ++ [k]))
  ∧ ∀ (s : State) (p : Params) (d : Nat), s.ctl.power.mainOn = true → cleanMemory s.ctl → s.ctl.params = some p →
    s.ctl.store.vouchers.length = 48 → s.ctl.store.receipts.length = 48 →
    exec (.dayRolloverStore d) s = .next { s with ctl := { arrive (.dayRolloverStore d) s.ctl with
      store := { s.ctl.store with
        vouchers := s.ctl.store.vouchers.map (Option.filter (fun v => decide (d ≤ fullUseBy v.voucher.useBy)))
        receipts := (stampedTable d s.ctl.store.receipts).map
          (Option.filter (fun r => decide (d ≤ r.receipt.created + p.receiptLife)))
        retired := (expiredKeys d s.ctl.store.vouchers
          ++ agedKeys d p.receiptLife (stampedTable d s.ctl.store.receipts)).foldl (fun l k => retiredWith k l)
            s.ctl.store.retired } } }

/-- The voucher table as a newcomer's room test sees it: of each entry the hop, the arrival sequence and whether it may give
way. -/
def Sys2Proof.Machine.voucherRoom (c : Controller) : List (Option (Nat × Nat × Bool)) :=
  c.store.vouchers.map (Option.map (fun e => (e.voucher.hop, e.arrival, true)))

/-- The receipt table likewise: an own receipt never gives way. -/
def Sys2Proof.Machine.receiptTableRoom (c : Controller) : List (Option (Nat × Nat × Bool)) :=
  c.store.receipts.map (Option.map (fun e => (e.receipt.hop, e.arrival, !e.own)))

/-- A newcomer of new hop `h` has the slot `n`: the first empty one, or, in a full table, that of the victim, the entry of the
greatest hop above `h` of those that may give way, the earliest among equals. -/
def Sys2Proof.Machine.hasSlot (h : Nat) (l : List (Option (Nat × Nat × Bool))) (n : Nat) : Prop :=
  (l[n]? = some none ∧ ∀ m : Nat, m < n → l[m]? ≠ some none)
  ∨ none ∉ l ∧ ∃ x : Nat × Nat × Bool, l[n]? = some (some x) ∧ x.2.2 = true ∧ h < x.1
    ∧ ∀ (m : Nat) (y : Nat × Nat × Bool), l[m]? = some (some y) → y.2.2 = true →
      y.1 < x.1 ∨ y.1 = x.1 ∧ (x.2.1 < y.2.1 ∨ x.2.1 = y.2.1 ∧ n ≤ m)

/-- A newcomer of new hop `h` has no slot: none is empty, and no entry of a greater hop may give way. -/
def Sys2Proof.Machine.hasNoSlot (h : Nat) (l : List (Option (Nat × Nat × Bool))) : Prop :=
  none ∉ l ∧ ∀ x : Nat × Nat × Bool, some x ∈ l → x.2.2 = true → x.1 ≤ h

/-- A table as a room test sees it, slot by slot: nothing, or the entry's hop, its arrival sequence and whether it may give
way. -/
def Sys2Proof.Machine.roomView (l : List SlotView) : List (Option (Nat × Nat × Bool)) :=
  l.map (fun v => match v with
    | .empty => none
    | .entry hop arrival yields => some (hop, arrival, yields))

/-- The verdicts of the admission test. An own voucher is HAVE when its serial is settled, pending or retired, REFUSE when the
full pending-own list has no place for it, or, the account not reading, and WANT otherwise. A foreign voucher, and a receipt
at an ORDINARY station, is HAVE when it is held or retired, REFUSE while relaying is suspended or past the hop limit, WANT in
an empty slot or a victim's, which is the entry of greatest hop, the earliest among equals, and REFUSE without one; there is
always one or the other. A receipt of this station is HAVE; one of another at an AGENT station is HAVE when it is logged or
retired, WANT while the log has room, and REFUSE else. `emptySlot` names the first empty slot and `roomFor` the slot that a
newcomer has, each on a table's view. The REFUSE of an account that does not read is the model's reading
(notes/assumptions/20.md). -/
def Obligations.WantedKeysAreNewAndHaveRoom : Prop :=
  (∀ c : Controller, roomView (voucherView c) = voucherRoom c ∧ roomView (receiptView c) = receiptTableRoom c)
  ∧ (∀ l : List SlotView,
    (∀ n : Nat, emptySlot 0 l = some n ↔ (roomView l)[n]? = some none ∧ ∀ m : Nat, m < n → (roomView l)[m]? ≠ some none)
    ∧ ∀ h : Nat, (∀ n : Nat, hasSlot h (roomView l) n → roomFor h l = some n)
      ∧ (hasNoSlot h (roomView l) → roomFor h l = none))
  ∧ (∀ (c : Controller) (k : ItemKey) (hop : Nat) (slot : Option Nat), admissionTest c (reckoningOf c) k hop = .want slot →
    c.store.retired.contains k = false
    ∧ (k.type = .voucher → k.kit = ownKit c → slot = none ∧ ¬ c.account.live.settled k.serial
      ∧ entryWith k.serial c.account.pendingOwn = none ∧ listTakes k.serial c.account.pendingOwn = true)
    ∧ (k.type = .voucher → k.kit ≠ ownKit c → c.exchange.suspended = false ∧ hop + 1 ≤ hopLimit c
      ∧ (∀ e : VoucherEntry, some e ∈ c.store.vouchers → voucherKey e.voucher ≠ k)
      ∧ ∃ n : Nat, slot = some n ∧ n < c.store.vouchers.length
        ∧ (c.store.vouchers.getD n none = none
          ∨ none ∉ c.store.vouchers ∧ ∃ e : VoucherEntry, c.store.vouchers.getD n none = some e ∧ hop + 1 < e.voucher.hop
            ∧ ∀ g : VoucherEntry, some g ∈ c.store.vouchers → g.voucher.hop ≤ e.voucher.hop))
    ∧ (k.type = .receipt → k.kit ≠ ownKit c)
    ∧ (k.type = .receipt → isAgent c = true → slot = none ∧ logHolds c k = false ∧ c.store.log.length < 256)
    ∧ (k.type = .receipt → isAgent c = false → c.exchange.suspended = false ∧ hop + 1 ≤ hopLimit c
      ∧ (∀ e : ReceiptEntry, some e ∈ c.store.receipts → receiptKey e.receipt ≠ k)
      ∧ ∃ n : Nat, slot = some n ∧ n < c.store.receipts.length
        ∧ (c.store.receipts.getD n none = none
          ∨ none ∉ c.store.receipts ∧ ∃ e : ReceiptEntry, c.store.receipts.getD n none = some e ∧ e.own = false
            ∧ hop + 1 < e.receipt.hop)))
  ∧ (∀ (h : Nat) (l : List (Option (Nat × Nat × Bool))), (∃ n : Nat, hasSlot h l n) ∨ hasNoSlot h l)
  ∧ ∀ (c : Controller) (k : ItemKey) (hop : Nat) (v : Verdict), v = admissionTest c (reckoningOf c) k hop →
    (k.type = .voucher → k.kit = ownKit c →
      (accountReads c = false → v = .refuse)
      ∧ (accountReads c = true →
        ((c.account.live.settled k.serial ∨ (∃ e : PendingEntry, e ∈ c.account.pendingOwn ∧ e.voucher.serial = k.serial)
            ∨ k ∈ c.store.retired) → v = .holds)
        ∧ (¬ c.account.live.settled k.serial → (∀ e : PendingEntry, e ∈ c.account.pendingOwn → e.voucher.serial ≠ k.serial) →
          k ∉ c.store.retired →
          (4 ≤ c.account.pendingOwn.length → (∀ e : PendingEntry, c.account.pendingOwn.getLast? = some e →
            e.voucher.serial < k.serial) → v = .refuse)
          ∧ ((c.account.pendingOwn.length < 4 ∨ ∃ e : PendingEntry, c.account.pendingOwn.getLast? = some e
            ∧ k.serial < e.voucher.serial) → v = .want none))))
    ∧ (∀ l : List (Option (Nat × Nat × Bool)),
      (k.type = .voucher ∧ k.kit ≠ ownKit c ∧ l = voucherRoom c
          ∧ (∀ e : VoucherEntry, some e ∈ c.store.vouchers → voucherKey e.voucher ≠ k)
        ∨ k.type = .receipt ∧ isAgent c = false ∧ k.kit ≠ ownKit c ∧ l = receiptTableRoom c
          ∧ (∀ e : ReceiptEntry, some e ∈ c.store.receipts → receiptKey e.receipt ≠ k)) →
      k ∉ c.store.retired →
      ((c.exchange.suspended = true ∨ hopLimit c < hop + 1) → v = .refuse)
      ∧ (c.exchange.suspended = false → hop + 1 ≤ hopLimit c →
        (∀ n : Nat, hasSlot (hop + 1) l n → v = .want (some n)) ∧ (hasNoSlot (hop + 1) l → v = .refuse)))
    ∧ (k.type = .voucher → k.kit ≠ ownKit c →
      (k ∈ c.store.retired ∨ ∃ e : VoucherEntry, some e ∈ c.store.vouchers ∧ voucherKey e.voucher = k) → v = .holds)
    ∧ (k.type = .receipt →
      ((k.kit = ownKit c ∨ k ∈ c.store.retired) → v = .holds)
      ∧ (isAgent c = false → (∃ e : ReceiptEntry, some e ∈ c.store.receipts ∧ receiptKey e.receipt = k) → v = .holds)
      ∧ (isAgent c = true → k.kit ≠ ownKit c → k ∉ c.store.retired →
        ((∃ r : Receipt, r ∈ c.store.log ∧ receiptKey r = k) → v = .holds)
        ∧ ((∀ r : Receipt, r ∈ c.store.log → receiptKey r ≠ k) →
          (c.store.log.length < 256 → v = .want none) ∧ (256 ≤ c.store.log.length → v = .refuse))))

/-! ### The Channel Access Unit (R155 to R159) -/

/-- The HAIL that a Controller composes under an exchange number. -/
def Sys2Proof.Machine.composedHail (number : Nat) (c : Controller) : HailFrame :=
  { header := {
      sender := ownKit c, addressee := 0, day := c.clock.day, agent := isAgent c
      timeSet := decide (c.clock.timeState = .set), relaySuspended := c.exchange.suspended, exchange := number }
    day := c.clock.day, second := c.clock.second
    freeVouchers := (c.store.vouchers.filter Option.isNone).length
    freeReceipts := (c.store.receipts.filter Option.isNone).length
    offers := (composeOffer c).1.map (fun o => ⟨airKeyOf o.1, o.2⟩) }

/-- The Controller with a HAIL of the next exchange number composed and placed: the hailer HAILING, the cursor moved on. -/
def Sys2Proof.Machine.hailPlaced (c : Controller) : Controller :=
  wake { c with
    exchange := { c.exchange with
      number := (c.exchange.number + 1) % 256, hailer := .hailing, askQueue := [], service := none }
    store := { c.store with cursor := (composeOffer c).2 }
    channel := { c.channel with
      hail := some {
        frame := .final (.hail (composedHail ((c.exchange.number + 1) % 256) c)), senses := 0, window := 8, deadline := none }
      backoff := backoffAfterPlacing .hail c.channel.backoff } }

/-- The Controller with the burst of a service placed in the CARRY slot, the hailer SERVING. -/
def Sys2Proof.Machine.burstPlaced (sv : Service) (c : Controller) : Controller :=
  wake { c with
    exchange := { c.exchange with hailer := .serving, service := some sv, tookWait := none }
    channel := { c.channel with
      carry := some {
        frame := .waiting {
          asker := sv.asker, exchange := c.exchange.number, burst := sv.burst, last := decide (sv.burst + 1 = sv.plan.length)
          keys := sv.plan.getD sv.burst [] }
        senses := 0, window := 8, deadline := none }
      backoff := backoffAfterPlacing .carry c.channel.backoff } }

/-- The Exchange Engine with the hailer IDLE and its exchange over. -/
def Sys2Proof.Machine.exchangeOver (e : Exchange) : Exchange :=
  { e with hailer := .idle, askQueue := [], service := none, tookWait := none, askWindow := none, windowExtended := false }

/-- The Controller as its hailer enters IDLE: a deferred HAIL is deferred no longer, and is composed at once unless relaying is
suspended (R129). -/
def Sys2Proof.Machine.hailerRests (c : Controller) : Controller :=
  if c.exchange.deferred = false then { c with exchange := exchangeOver c.exchange }
  else if c.exchange.suspended = true then { c with exchange := { exchangeOver c.exchange with deferred := false } }
  else hailPlaced { c with exchange := { exchangeOver c.exchange with deferred := false } }

/-- The service of an ask queue entry as it begins: its plan cut in bursts, or one empty burst where no key gives an item. -/
def Sys2Proof.Machine.serviceBegun (e : AskEntry) (c : Controller) : Service :=
  { asker := e.asker, keyCount := e.keys.length
    plan := if e.keys.any (givesItem c) then burstsOf (burstSize c) e.keys.length e.keys else [[]]
    burst := 0, retry := 0, acked := 0 }

/-- The Controller with an asker's service begun: its first burst is placed. -/
def Sys2Proof.Machine.askerServed (e : AskEntry) (c : Controller) : Controller := burstPlaced (serviceBegun e c) c

/-- The Controller after an ask queue has been served as far as its first `n` entries: the next asker is served, or the exchange
is over. -/
def Sys2Proof.Machine.servedOn (n : Nat) (c : Controller) : Controller :=
  match c.exchange.askQueue.drop n with
  | [] => hailerRests c
  | e :: l => askerServed e { c with exchange := { c.exchange with askQueue := e :: l } }

/-- The Controller with a service abandoned: its residual raises the tally, and the next asker is served. -/
def Sys2Proof.Machine.askerAbandoned (sv : Service) (c : Controller) : Controller :=
  servedOn 1 { c with exchange := { c.exchange with tally := min 65535 (c.exchange.tally + (sv.keyCount - sv.acked)) } }

/-- The Channel Access Unit chooses nothing while a transmission or a backoff runs or its slots are empty. Else it senses for
the highest occupied slot: on a free channel that frame leaves its slot for the air; on a busy one it backs off by 1 to its
window of 20 ms slots and the window doubles up to 64. The fifth busy sense drops it and the unit chooses again at once: a TOOK
needs nothing further, an ASK's asker is IDLE, a HAIL's hailer enters IDLE, and a CARRY is a failed attempt, placed again up to
three times before its asker is abandoned; a CARRY whose service has ended already brings the next asker. TOOK goes before
CARRY, CARRY before ASK and ASK before HAIL; a frame placed stops a backoff that runs for its own slot or a lower one, one that
leaves stops its own; and a placement wakes a station in DOZE to LISTEN for the listen hold. That a CARRY's header, its day and
its flags, is read when its transmission begins is the model's reading (notes/assumptions/15.md). -/
def Obligations.ChannelAccessChooses : Prop :=
  (rank .took < rank .carry ∧ rank .carry < rank .ask ∧ rank .ask < rank .hail)
  ∧ (∀ (k j : FrameKind) (n : Nat), backoffAfterPlacing k none = none ∧ backoffAfterLeaving k none = none
    ∧ (rank k ≤ rank j → backoffAfterPlacing k (some (j, n)) = none)
    ∧ (rank j < rank k → backoffAfterPlacing k (some (j, n)) = some (j, n))
    ∧ backoffAfterLeaving k (some (k, n)) = none ∧ (j ≠ k → backoffAfterLeaving k (some (j, n)) = some (j, n)))
  ∧ (∀ c : Controller, (c.radio.rx ≠ .doze → wake c = c)
    ∧ (c.radio.rx = .doze → wake c = { c with
      radio := { c.radio with rx := .listen, hold := some (listenMs c), sampling := false } }))
  ∧ ∀ c : Controller,
    ((c.radio.active = false ∨ c.radio.rx = .transmitting ∨ c.channel.backoff.isSome = true
        ∨ (c.channel.took = none ∧ c.channel.carry = none ∧ c.channel.ask = none ∧ c.channel.hail = none)) →
      choose c = c)
    ∧ ∀ (k : FrameKind) (t : TxSlot), c.radio.active = true → c.radio.rx ≠ .transmitting → c.channel.backoff = none →
      slotOf k c.channel = some t → (∀ j : FrameKind, rank j < rank k → slotOf j c.channel = none) →
      (c.power.channelBusy = false → c.radio.rx ≠ .receiving →
        (∀ f : AirFrame, t.frame = .final f → choose c = { c with
          channel := setSlot k none c.channel, radio := { c.radio with rx := .transmitting, onAir := some f } })
        ∧ ∀ w : WaitingCarry, t.frame = .waiting w → c.check.bad = [] → choose c = { c with
          channel := setSlot k none c.channel
          radio := { c.radio with rx := .transmitting, onAir := some (.carry {
            header := {
              sender := ownKit c, addressee := w.asker, day := c.clock.day, agent := isAgent c
              timeSet := decide (c.clock.timeState = .set), relaySuspended := c.exchange.suspended, exchange := w.exchange }
            burst := w.burst, last := w.last, vouchers := w.keys.filterMap (carriedVoucher c)
            receipts := w.keys.filterMap (carriedReceipt c) }) } })
      ∧ ((c.power.channelBusy = true ∧ (c.radio.rx = .listen ∨ c.radio.sampling = true) ∨ c.radio.rx = .receiving) →
        (t.senses < 4 → choose c = { c with
          channel := { setSlot k (some { t with senses := t.senses + 1, window := min 64 (2 * t.window) }) c.channel with
            backoff := some (k, drawn 1 t.window c) }
          draws := c.draws + 1 })
        ∧ (t.senses = 4 →
          (k = .took → choose c = choose { c with channel := { c.channel with took := none } })
          ∧ (k = .ask → choose c = choose { c with
            channel := { c.channel with ask := none }
            exchange := { c.exchange with asker := .idle, outstanding := none, askDelay := none, carryTimer := none } })
          ∧ (c.check.bad = [] →
            (k = .hail → choose c = choose (hailerRests { c with channel := { c.channel with hail := none } }))
            ∧ (k = .carry → ∀ d : Controller, d = { c with channel := { c.channel with carry := none } } →
              (c.exchange.service = none → choose c = choose (servedOn 0 d))
              ∧ ∀ sv : Service, c.exchange.service = some sv →
                (c.exchange.hailer ≠ .serving → choose c = choose d)
                ∧ (c.exchange.hailer = .serving →
                  (sv.retry < 3 → choose c = choose (burstPlaced { sv with retry := sv.retry + 1 } d))
                  ∧ (3 ≤ sv.retry → choose c = choose (askerAbandoned sv d)))))))

/-! ### The Exchange Engine (R119 to R139) -/

/-- The entry at an offer position offers its key with its hop: positions 0 to 47 are the voucher table's slots, 48 to 95 the
receipt table's. -/
def Sys2Proof.Machine.offersAt (c : Controller) (p : Nat) (o : ItemKey × Nat) : Prop :=
  (∃ e : VoucherEntry, p < 48 ∧ c.store.vouchers[p]? = some (some e) ∧ o = (voucherKey e.voucher, e.voucher.hop))
  ∨ ∃ e : ReceiptEntry, 48 ≤ p ∧ p < 96 ∧ c.store.receipts[p - 48]? = some (some e)
    ∧ o = (receiptKey e.receipt, e.receipt.hop)

/-- How many positions an offer position lies ahead of the cursor, 95 being followed by 0. -/
def Sys2Proof.Machine.ahead (c : Controller) (p : Nat) : Nat := (p + 96 - c.store.cursor) % 96

/-- The positions that the round lists beside the own receipts listed first: in walking order, of positions that hold an entry
and are not listed already, as many as bring the list to ten keys, none passed over before the last one listed. -/
def Sys2Proof.Machine.roundWalked (c : Controller) (own round : List Nat) : Prop :=
  round.Pairwise (fun p q => ahead c p < ahead c q)
  ∧ (∀ p : Nat, p ∈ round → p ∉ own ∧ ∃ o : ItemKey × Nat, offersAt c p o)
  ∧ own.length + round.length ≤ 10
  ∧ ∀ (p : Nat) (o : ItemKey × Nat), offersAt c p o → p ∉ own → p ∉ round →
    own.length + round.length = 10 ∧ ∀ q : Nat, q ∈ round → ahead c q < ahead c p

/-- The hail timer's expiry rearms it to 0.75 to 1.25 hail periods. While relaying is suspended that is all; while the hailer is
not IDLE the HAIL is deferred; else a HAIL of the next exchange number is composed and placed, and the cursor moves on. The HAIL
offers the first three own receipts of the table, earliest first, and then what the round from the cursor lists up to ten keys,
each key with its hop; the cursor goes to the position after the last one that the round lists, and stands where it lists none.
The drawn factor is a free value (notes/assumptions/3.md), the channel's level the command's operand (4.md), and that the
Channel Access Unit chooses at the command's end is the model's choice (23.md). A value drawn between two bounds lies between
them, both included, wherever a statement draws one. -/
def Obligations.HailTimerComposesAHail : Prop :=
  (∀ (lo hi : Nat) (c : Controller), lo ≤ hi → lo ≤ drawn lo hi c ∧ drawn lo hi c ≤ hi)
  ∧ (∀ (c : Controller) (m : List (Nat × ReceiptEntry)) (own : List Nat), c.store.vouchers.length = 48 →
    c.store.receipts.length = 48 → c.store.cursor < 96 → ownInOrder c.store.receipts m →
    own = (m.take 3).map (fun x => x.1 + 48) →
    ∃ round : List Nat, roundWalked c own round
      ∧ List.Forall₂ (offersAt c) (own ++ round) (composeOffer c).1
      ∧ (round = [] → (composeOffer c).2 = c.store.cursor)
      ∧ ∀ p : Nat, round.getLast? = some p → (composeOffer c).2 = (p + 1) % 96)
  ∧ (∀ k : ItemKey, airKeyOf k = ⟨if k.type = .voucher then 1 else 2, k.kit, k.serial⟩)
  ∧ ∀ (s : State) (busy : Bool) (n : Nat), s.ctl.power.mainOn = true → s.ctl.radio.active = true →
    s.ctl.exchange.hailTimer = some n →
    (s.ctl.exchange.suspended = true → exec (.hailTimerExpiry busy) s = .next { s with ctl := choose { setBusy busy s.ctl with
      exchange := { s.ctl.exchange with
        hailTimer := some (drawn (750 * hailPeriod s.ctl) (1250 * hailPeriod s.ctl) s.ctl) }
      draws := s.ctl.draws + 1 } })
    ∧ (s.ctl.exchange.suspended = false → s.ctl.exchange.hailer ≠ .idle →
      exec (.hailTimerExpiry busy) s = .next { s with ctl := choose { setBusy busy s.ctl with
        exchange := { s.ctl.exchange with
          hailTimer := some (drawn (750 * hailPeriod s.ctl) (1250 * hailPeriod s.ctl) s.ctl), deferred := true }
        draws := s.ctl.draws + 1 } })
    ∧ (s.ctl.exchange.suspended = false → s.ctl.exchange.hailer = .idle → s.ctl.check.bad = [] →
      exec (.hailTimerExpiry busy) s = .next { s with ctl := choose (hailPlaced { setBusy busy s.ctl with
        exchange := { s.ctl.exchange with
          hailTimer := some (drawn (750 * hailPeriod s.ctl) (1250 * hailPeriod s.ctl) s.ctl) }
        draws := s.ctl.draws + 1 }) })

/-- An ASK is queued when it reaches the open ask window addressed to this station, under the current exchange number, from a
station not queued yet, with a valid key, and the queue has room; in any other case it changes nothing. The window closes at
its end when the channel is free, at the end of its extension otherwise: with asks queued the first asker is served, its plan
cut in bursts, or one empty burst where no key gives an item; with none the hailer is IDLE, and a HAIL deferred meanwhile is
composed, or dropped while relaying is suspended. A channel-busy that is asserted while the station is TRANSMITTING, or dozes
with its enable off, is read as free. A plan of n keys has n divided by the burst size, rounded up, bursts, each of as many keys
as the burst size in ASK order, the last of the rest. A key gives the item of the voucher or receipt held under it, with its
hop, as often as it is asked, and no other key gives one. The arrival in transit (notes/assumptions/1.md), the level of
channel-busy as an operand (4.md) and the choice at the command's end (23.md) are the model's. -/
def Obligations.AskWindowTakesAsks : Prop :=
  (∀ (B n : Nat) (keys : List ItemKey), 1 ≤ B → n = keys.length →
    (burstsOf B n keys).length = (n + B - 1) / B ∧ (burstsOf B n keys).flatten = keys
      ∧ ∀ (k : Nat) (b : List ItemKey), (burstsOf B n keys)[k]? = some b → b = (keys.drop (k * B)).take B)
  ∧ (∀ (c : Controller) (k : ItemKey),
    (∀ e : VoucherEntry, some e ∈ c.store.vouchers → voucherKey e.voucher = k →
      (∀ f : VoucherEntry, some f ∈ c.store.vouchers → voucherKey f.voucher = k → f = e) →
      carriedVoucher c k = some (itemOfVoucher e.voucher))
    ∧ ((∀ e : VoucherEntry, some e ∈ c.store.vouchers → voucherKey e.voucher ≠ k) → carriedVoucher c k = none)
    ∧ (∀ e : ReceiptEntry, some e ∈ c.store.receipts → receiptKey e.receipt = k →
      (∀ f : ReceiptEntry, some f ∈ c.store.receipts → receiptKey f.receipt = k → f = e) →
      carriedReceipt c k = some (itemOfReceipt e.receipt))
    ∧ ((∀ e : ReceiptEntry, some e ∈ c.store.receipts → receiptKey e.receipt ≠ k) → carriedReceipt c k = none)
    ∧ (givesItem c k = true ↔ (∃ e : VoucherEntry, some e ∈ c.store.vouchers ∧ voucherKey e.voucher = k)
      ∨ ∃ e : ReceiptEntry, some e ∈ c.store.receipts ∧ receiptKey e.receipt = k))
  ∧ (∀ (s : State) (f : AskFrame), s.ctl.power.mainOn = true → s.ctl.radio.active = true → cleanMemory s.ctl →
    (s.ctl.exchange.hailer = .askWindow → f.header.addressee = ownKit s.ctl → f.header.exchange = s.ctl.exchange.number →
      (∀ e ∈ s.ctl.exchange.askQueue, e.asker ≠ f.header.sender) → validKeys f.keys ≠ [] →
      s.ctl.exchange.askQueue.length < 4 →
      exec (.askReceived f) s = .next { s with ctl := { arrive (.askReceived f) s.ctl with
        exchange := { s.ctl.exchange with
          askQueue := s.ctl.exchange.askQueue ++ [⟨f.header.sender, validKeys f.keys⟩] } } })
    ∧ ((s.ctl.exchange.hailer ≠ .askWindow ∨ f.header.addressee ≠ ownKit s.ctl
        ∨ f.header.exchange ≠ s.ctl.exchange.number ∨ (∃ e ∈ s.ctl.exchange.askQueue, e.asker = f.header.sender)
        ∨ validKeys f.keys = [] ∨ 4 ≤ s.ctl.exchange.askQueue.length) →
      exec (.askReceived f) s = .next { s with ctl := arrive (.askReceived f) s.ctl }))
  ∧ ∀ (s : State) (busy : Bool), s.ctl.power.mainOn = true → s.ctl.radio.active = true → s.ctl.check.bad = [] →
    s.ctl.exchange.hailer = .askWindow → s.ctl.exchange.service = none →
    (s.ctl.exchange.windowExtended = false → busy = true →
      (s.ctl.radio.rx = .listen ∨ s.ctl.radio.rx = .receiving ∨ s.ctl.radio.rx = .doze ∧ s.ctl.radio.sampling = true) →
      exec (.askWindowClose busy) s = .next { s with ctl := choose { setBusy busy s.ctl with
        exchange := { s.ctl.exchange with askWindow := some 2200, windowExtended := true } } })
    ∧ (s.ctl.exchange.windowExtended = true ∨ busy = false ∨ s.ctl.radio.rx = .transmitting
        ∨ s.ctl.radio.rx = .doze ∧ s.ctl.radio.sampling = false →
      (s.ctl.exchange.askQueue = [] →
        exec (.askWindowClose busy) s = .next { s with ctl := choose (hailerRests (setBusy busy s.ctl)) })
      ∧ ∀ (e : AskEntry) (l : List AskEntry), s.ctl.exchange.askQueue = e :: l →
        exec (.askWindowClose busy) s = .next { s with ctl := choose (askerServed e { setBusy busy s.ctl with
          exchange := { s.ctl.exchange with askWindow := none, windowExtended := false } }) })

/-- The store with receipt keys retired one after another: each leaves the receipt table and joins the retired-key list. -/
def Sys2Proof.Machine.receiptsRetired (keys : List ItemKey) (st : Store) : Store :=
  { st with
    receipts := keys.foldl (fun l k => receiptsWithout k l) st.receipts
    retired := keys.foldl (fun l k => retiredWith k l) st.retired }

/-- The Controller as a TOOK's match finds it: the TOOK in transit no longer, channel-busy at its level, and, where the TOOK
is an AGENT's, the receipt keys it lists retired (R109, R130). -/
def Sys2Proof.Machine.tookTaken (f : TookFrame) (busy : Bool) (c : Controller) : Controller :=
  { setBusy busy (arriveTook f c) with
    store := if f.header.agent then
        receiptsRetired ((validKeys f.keys).filter (fun k => decide (k.type = .receipt))) c.store
      else c.store }

/-- The receipt keys that an AGENT's TOOK lists are retired, whatever the hailer awaits. A TOOK of the asker served, for the
burst sent, acknowledges its keys and brings the next burst, or after the asker's last burst the next asker's first, or ends
the exchange after the last asker; 400 ms without it place the burst again up to three times and then abandon the asker, whose
unacknowledged keys raise the tally, for the next asker or the exchange's end, where a HAIL deferred meanwhile is composed, or
dropped while relaying is suspended. That the listed receipts are retired before the TOOK is matched, so that the next burst or
HAIL is formed without them, is the model's reading (notes/assumptions/15.md), and that the Channel Access Unit chooses at the
command's end, also where no frame has been placed, its choice (23.md). -/
def Obligations.TooksAndTheirWait : Prop :=
  (∀ (s : State) (f : TookFrame) (busy : Bool), s.ctl.power.mainOn = true → s.ctl.radio.active = true →
    cleanMemory s.ctl →
    (s.ctl.exchange.hailer ≠ .awaitTook ∨ f.header.addressee ≠ ownKit s.ctl ∨ f.header.exchange ≠ s.ctl.exchange.number
      ∨ ∀ sv : Service, s.ctl.exchange.service = some sv → f.header.sender ≠ sv.asker ∨ f.burst ≠ sv.burst) →
    exec (.tookReceived f busy) s = .next { s with ctl := choose (tookTaken f busy s.ctl) })
  ∧ ∀ (s : State) (sv : Service) (busy : Bool), s.ctl.power.mainOn = true → s.ctl.radio.active = true →
    cleanMemory s.ctl → s.ctl.exchange.hailer = .awaitTook → s.ctl.exchange.service = some sv →
    (∀ f : TookFrame, f.header.addressee = ownKit s.ctl → f.header.sender = sv.asker →
      f.header.exchange = s.ctl.exchange.number → f.burst = sv.burst →
      (sv.burst + 1 < sv.plan.length → exec (.tookReceived f busy) s = .next { s with ctl := choose (burstPlaced
        { sv with acked := sv.acked + (sv.plan.getD sv.burst []).length, retry := 0, burst := sv.burst + 1 }
        (tookTaken f busy s.ctl)) })
      ∧ (sv.plan.length ≤ sv.burst + 1 →
        exec (.tookReceived f busy) s = .next { s with ctl := choose (servedOn 1 (tookTaken f busy s.ctl)) }))
    ∧ (s.ctl.exchange.tookWait.isSome = true →
      (sv.retry < 3 → exec (.tookWaitExpiry busy) s = .next { s with ctl := choose (burstPlaced
        { sv with retry := sv.retry + 1 } (setBusy busy s.ctl)) })
      ∧ (3 ≤ sv.retry →
        exec (.tookWaitExpiry busy) s = .next { s with ctl := choose (askerAbandoned sv (setBusy busy s.ctl)) }))

/-- The end of a transmission returns the receive state to LISTEN and tells the frame's owner: a HAIL opens the ask window of
1,500 ms, an ASK starts the carry timeout of 20 s, a CARRY its TOOK wait of 400 ms. The end of a backoff stops its timer. -/
def Obligations.TransmissionsEnd : Prop :=
  ∀ (s : State) (busy : Bool), s.ctl.power.mainOn = true → s.ctl.radio.active = true →
    exec (.backoffTimerExpiry busy) s = .next { s with ctl := choose { setBusy busy s.ctl with
      channel := { s.ctl.channel with backoff := none } } }
    ∧ (s.ctl.radio.rx = .transmitting →
      (∀ f : HailFrame, s.ctl.radio.onAir = some (.hail f) →
        exec (.transmissionEnd busy) s = .next { s with ctl := choose { setBusy busy s.ctl with
          radio := { s.ctl.radio with rx := .listen, onAir := none }
          exchange := { s.ctl.exchange with hailer := .askWindow, askWindow := some 1500, windowExtended := false } } })
      ∧ (∀ f : AskFrame, s.ctl.radio.onAir = some (.ask f) →
        exec (.transmissionEnd busy) s = .next { s with ctl := choose { setBusy busy s.ctl with
          radio := { s.ctl.radio with rx := .listen, onAir := none }
          exchange := { s.ctl.exchange with
            keptTook := none, asker := .awaitCarry, carryTimer := some 20000
            outstanding := s.ctl.exchange.outstanding.map (fun o => { o with lastBurst := none }) } } })
      ∧ (∀ (f : CarryFrame) (sv : Service), s.ctl.radio.onAir = some (.carry f) → s.ctl.exchange.service = some sv →
        sv.asker = f.header.addressee → s.ctl.exchange.hailer = .serving →
        exec (.transmissionEnd busy) s = .next { s with ctl := choose { setBusy busy s.ctl with
          radio := { s.ctl.radio with rx := .listen, onAir := none }
          exchange := { s.ctl.exchange with hailer := .awaitTook, tookWait := some 400 } } })
      ∧ ∀ f : TookFrame, s.ctl.radio.onAir = some (.took f) →
        exec (.transmissionEnd busy) s = .next { s with ctl := choose { setBusy busy s.ctl with
          radio := { s.ctl.radio with rx := .listen, onAir := none } } })

/-- The room that a WANT has used up in a table's view: the slot named is empty no longer and no victim. -/
def Sys2Proof.Machine.usedUp (slot : Option Nat) (l : List (Option (Nat × Nat × Bool))) : List (Option (Nat × Nat × Bool)) :=
  match slot with
  | none => l
  | some n => l.set n (some (0, 0, false))

/-- A HAIL at an IDLE asker makes an ASK for the first six keys that the admission test wants, with a random delay of up to
1,200 ms; at any other asker, or with nothing wanted, it changes nothing. The delay's end places the ASK, and its deadline in
the slot or the carry timeout discards it with the asker IDLE. The candidates are the HAIL's valid keys with a hop of at most
15: own vouchers first, then receipts, then foreign vouchers, each group in the HAIL's order. They are tested one by one against
a reckoning that starts from the store as it stands: a key WANT uses up the slot named with it, the empty one or the victim's,
or a place in an AGENT's log, for the keys after it, and an equal key after it is HAVE. Against any reckoning the verdict is
that of the admission test, with the room that the reckoning leaves. -/
def Obligations.AsksAreMade : Prop :=
  (∀ (k : AirKey) (i : ItemKey), keyOf k = some i ↔ i.kit = k.kit ∧ i.serial = k.serial ∧ 1 ≤ k.kit ∧ k.kit ≤ 99999999
    ∧ 1 ≤ k.serial ∧ (k.type = 1 ∧ i.type = .voucher ∧ k.serial ≤ 9999 ∨ k.type = 2 ∧ i.type = .receipt ∧ k.serial ≤ 65535))
  ∧ (∀ l : List AirKey, validKeys l = l.filterMap keyOf)
  ∧ (∀ (c : Controller) (f : HailFrame) (all : List (ItemKey × Nat)),
    all = f.offers.filterMap (fun o => if o.hop ≤ 15 then (keyOf o.key).map (fun k => (k, o.hop)) else none) →
    candidates c f = all.filter (fun o => decide (o.1.type = .voucher ∧ o.1.kit = ownKit c))
      ++ all.filter (fun o => decide (o.1.type = .receipt))
      ++ all.filter (fun o => decide (o.1.type = .voucher ∧ o.1.kit ≠ ownKit c)))
  ∧ (∀ c : Controller, roomView (reckoningOf c).vouchers = voucherRoom c
    ∧ roomView (reckoningOf c).receipts = receiptTableRoom c ∧ (reckoningOf c).logged = c.store.log.length
    ∧ (reckoningOf c).answered = [])
  ∧ (∀ (c : Controller) (r : Reckoning) (k : ItemKey) (hop : Nat) (rest : List (ItemKey × Nat)),
    wanted c r [] = []
    ∧ (k ∈ r.answered → wanted c r ((k, hop) :: rest) = wanted c r rest)
    ∧ (k ∉ r.answered →
      (admissionTest c r k hop = .holds ∨ admissionTest c r k hop = .refuse →
        wanted c r ((k, hop) :: rest) = wanted c { r with answered := k :: r.answered } rest)
      ∧ ∀ slot : Option Nat, admissionTest c r k hop = .want slot →
        ∃ q : Reckoning, wanted c r ((k, hop) :: rest) = k :: wanted c q rest ∧ q.answered = k :: r.answered
          ∧ roomView q.vouchers = (if k.type = .voucher then usedUp slot (roomView r.vouchers) else roomView r.vouchers)
          ∧ roomView q.receipts = (if k.type = .receipt ∧ isAgent c = false then usedUp slot (roomView r.receipts)
            else roomView r.receipts)
          ∧ q.logged = (if k.type = .receipt ∧ isAgent c = true then r.logged + 1 else r.logged)))
  ∧ (∀ (c : Controller) (r : Reckoning) (k : ItemKey) (hop : Nat) (v : Verdict), v = admissionTest c r k hop →
    (v = .holds ↔ admissionTest c (reckoningOf c) k hop = .holds)
    ∧ (k.type = .voucher → k.kit = ownKit c → v = admissionTest c (reckoningOf c) k hop)
    ∧ (v ≠ .holds →
      (∀ l : List (Option (Nat × Nat × Bool)), (k.type = .voucher ∧ k.kit ≠ ownKit c ∧ l = roomView r.vouchers
          ∨ k.type = .receipt ∧ isAgent c = false ∧ l = roomView r.receipts) →
        ((c.exchange.suspended = true ∨ hopLimit c < hop + 1) → v = .refuse)
        ∧ (c.exchange.suspended = false → hop + 1 ≤ hopLimit c →
          (∀ n : Nat, hasSlot (hop + 1) l n → v = .want (some n)) ∧ (hasNoSlot (hop + 1) l → v = .refuse)))
      ∧ (k.type = .receipt → isAgent c = true →
        (r.logged < 256 → v = .want none) ∧ (256 ≤ r.logged → v = .refuse))))
  ∧ ∀ (s : State) (busy : Bool), s.ctl.power.mainOn = true → s.ctl.radio.active = true →
    (∀ f : HailFrame, s.ctl.exchange.asker ≠ .idle →
      exec (.hailReceived f) s = .next { s with ctl := arrive (.hailReceived f) s.ctl })
    ∧ (∀ (f : HailFrame) (c : Controller) (keys : List ItemKey), s.ctl.exchange.asker = .idle → s.ctl.check.bad = [] →
      c = arrive (.hailReceived f) s.ctl → keys = (wanted c (reckoningOf c) (candidates c f)).take 6 →
      (keys = [] → exec (.hailReceived f) s = .next { s with ctl := c })
      ∧ (keys ≠ [] → exec (.hailReceived f) s = .next { s with ctl := { c with
        exchange := { s.ctl.exchange with
          asker := .askPending, askDelay := some (drawn 0 1200 s.ctl)
          outstanding := some {
            hailer := f.header.sender, exchange := f.header.exchange, keys := keys
            composed := {
              header := {
                sender := ownKit s.ctl, addressee := f.header.sender, day := s.ctl.clock.day, agent := isAgent s.ctl
                timeSet := decide (s.ctl.clock.timeState = .set), relaySuspended := s.ctl.exchange.suspended
                exchange := f.header.exchange }
              keys := keys.map airKeyOf }
            deadline := 1500, lastBurst := none } }
        draws := s.ctl.draws + 1 } }))
    ∧ (∀ (n : Nat) (o : Outstanding), s.ctl.exchange.askDelay = some n → s.ctl.exchange.outstanding = some o →
      exec (.askDelayExpiry busy) s = .next { s with ctl := choose (wake { setBusy busy s.ctl with
        exchange := { s.ctl.exchange with askDelay := none }
        channel := { s.ctl.channel with
          ask := some { frame := .final (.ask o.composed), senses := 0, window := 8, deadline := some o.deadline }
          backoff := backoffAfterPlacing .ask s.ctl.channel.backoff } }) })
    ∧ (s.ctl.channel.ask.isSome = true →
      exec (.askDeadline busy) s = .next { s with ctl := choose { setBusy busy s.ctl with
        exchange := { s.ctl.exchange with asker := .idle, outstanding := none, askDelay := none, carryTimer := none }
        channel := { s.ctl.channel with ask := none, backoff := backoffAfterLeaving .ask s.ctl.channel.backoff } } })
    ∧ (s.ctl.exchange.carryTimer.isSome = true → exec .carryTimeout s = .next { s with ctl := { s.ctl with
        exchange := { s.ctl.exchange with asker := .idle, outstanding := none, askDelay := none, carryTimer := none } } })

/-- A CARRY in answer to the ASK restarts the carry timeout. Of a new burst all items are read in turn, the keys taken are
listed in the TOOK that is kept and placed, and the last burst ends the ask; a burst of one wanted voucher stores it with its
hop raised. The burst answered last has its TOOK placed again, also after the ask has ended, and an
older one changes no more. Every other CARRY is only searched for own vouchers, which are delivered if they are wanted: one of
the outstanding exchange for another station, which restarts the carry timeout too, and one of another exchange, for this station
or another, which does not. That a CARRY for this station in ASK-PENDING, no repeat of the burst answered last, is so searched
only is the model's reading (notes/assumptions/15.md), and that the Channel Access Unit chooses at the command's end, also where
no frame has been placed, its choice (23.md). -/
def Obligations.CarriesAreRead : Prop :=
  ∀ (s : State) (f : CarryFrame) (busy : Bool) (c : Controller), s.ctl.power.mainOn = true → s.ctl.radio.active = true →
    cleanMemory s.ctl → c = setBusy busy (arriveCarry f s.ctl) →
    (∀ o : Outstanding, s.ctl.exchange.asker = .awaitCarry → s.ctl.exchange.outstanding = some o →
      o.hailer = f.header.sender → o.exchange = f.header.exchange → f.header.addressee = ownKit s.ctl →
      (∀ (r : Controller × List ItemKey) (took : TookFrame), (∀ b, o.lastBurst = some b → b < f.burst) →
        r = readItems o.keys f { c with exchange := { s.ctl.exchange with carryTimer := some 20000 } } →
        took = {
          header := composeHeader f.header.sender f.header.exchange r.1, burst := f.burst, keys := r.2.map airKeyOf } →
        exec (.carryReceived f busy) s = .next { s with ctl := choose (
          let d := wake { r.1 with
            exchange := { r.1.exchange with
              keptTook := some took, outstanding := some { o with lastBurst := some f.burst } }
            channel := { r.1.channel with
              took := some { frame := .final (.took took), senses := 0, window := 8, deadline := none }, backoff := none } }
          if f.last then { d with exchange := { d.exchange with
            asker := .idle, outstanding := none, askDelay := none, carryTimer := none } } else d) })
      ∧ (∀ (i : VoucherItem) (v : Voucher) (n : Nat), (∀ b, o.lastBurst = some b → b < f.burst) → f.vouchers = [i] →
        f.receipts = [] → voucherOfItem i = some v → v.target ≠ ownKit s.ctl → o.keys.contains (voucherKey v) = true →
        admissionTest s.ctl (reckoningOf s.ctl) (voucherKey v) v.hop = .want (some n) →
        exec (.carryReceived f busy) s = .next { s with ctl := (
          let took : TookFrame := {
            header := {
              sender := ownKit s.ctl, addressee := f.header.sender, day := s.ctl.clock.day, agent := isAgent s.ctl
              timeSet := decide (s.ctl.clock.timeState = .set), relaySuspended := s.ctl.exchange.suspended
              exchange := f.header.exchange }
            burst := f.burst, keys := [⟨1, v.target, v.serial⟩] }
          choose (wake { c with
            store := { s.ctl.store with
              vouchers := s.ctl.store.vouchers.set n (some {
                voucher := { v with hop := min 15 (v.hop + 1) }, arrival := s.ctl.store.arrivals, isLocal := false })
              arrivals := min 4294967295 (s.ctl.store.arrivals + 1) }
            inTransit := c.inTransit
              ++ (if (s.ctl.store.vouchers.getD n none).isSome then [.conditionReport (.raised .storeFull)] else [])
            exchange := { s.ctl.exchange with
              keptTook := some took
              asker := if f.last then .idle else .awaitCarry
              outstanding := if f.last then none else some { o with lastBurst := some f.burst }
              askDelay := if f.last then none else s.ctl.exchange.askDelay
              carryTimer := if f.last then none else some 20000 }
            channel := { s.ctl.channel with
              took := some { frame := .final (.took took), senses := 0, window := 8, deadline := none }
              backoff := none } })) })
      ∧ (∀ t : TookFrame, o.lastBurst = some f.burst → s.ctl.exchange.keptTook = some t →
        exec (.carryReceived f busy) s = .next { s with ctl := choose (wake { c with
          exchange := { s.ctl.exchange with carryTimer := some 20000 }
          channel := { s.ctl.channel with
            took := some { frame := .final (.took t), senses := 0, window := 8, deadline := none }, backoff := none } }) })
      ∧ (∀ b : Nat, o.lastBurst = some b → f.burst < b →
        exec (.carryReceived f busy) s = .next { s with ctl := choose { c with
          exchange := { s.ctl.exchange with carryTimer := some 20000 } } }))
    ∧ (∀ t : TookFrame, s.ctl.exchange.asker ≠ .awaitCarry → f.header.addressee = ownKit s.ctl →
      s.ctl.exchange.keptTook = some t → t.header.addressee = f.header.sender → t.header.exchange = f.header.exchange →
      t.burst = f.burst →
      exec (.carryReceived f busy) s = .next { s with ctl := choose (wake { c with
        channel := { s.ctl.channel with
          took := some { frame := .final (.took t), senses := 0, window := 8, deadline := none }, backoff := none } }) })
    ∧ ∀ (g : Controller) (mine : Prop), (mine ↔ ∃ o : Outstanding, s.ctl.exchange.asker = .awaitCarry
        ∧ s.ctl.exchange.outstanding = some o ∧ o.hailer = f.header.sender ∧ o.exchange = f.header.exchange) →
      (mine ∧ f.header.addressee ≠ ownKit s.ctl
          ∧ g = { c with exchange := { s.ctl.exchange with carryTimer := some 20000 } }
        ∨ ¬ mine ∧ g = c ∧ (f.header.addressee ≠ ownKit s.ctl ∨ s.ctl.exchange.asker = .awaitCarry
          ∨ ∀ t : TookFrame, s.ctl.exchange.keptTook = some t → t.header.addressee ≠ f.header.sender
            ∨ t.header.exchange ≠ f.header.exchange ∨ t.burst ≠ f.burst)) →
      ((∀ i ∈ f.vouchers, ∀ v, voucherOfItem i = some v → v.target ≠ ownKit s.ctl) →
        exec (.carryReceived f busy) s = .next { s with ctl := choose g })
      ∧ ∀ (i : VoucherItem) (v : Voucher), f.vouchers = [i] → voucherOfItem i = some v → v.target = ownKit s.ctl →
        (admitOwn s.ctl (voucherKey v) = .want none →
          exec (.carryReceived f busy) s =
            .next { s with ctl := choose (deliver { v with hop := min 15 (v.hop + 1) } none g) })
        ∧ ((admitOwn s.ctl (voucherKey v) = .holds ∨ admitOwn s.ctl (voucherKey v) = .refuse) →
          exec (.carryReceived f busy) s = .next { s with ctl := choose g })

/-- What reading one item of a CARRY in answer to the ASK does, the keys taken so far being `l`: the items are read vouchers
first, each in its order. An item that is not valid, or whose key was not asked for, changes nothing, but for an own voucher,
which is delivered if it is wanted; an asked key listed already or held is listed and a refused one is not. A wanted voucher is
stored with its hop raised, an own one delivered and listed if it is taken. A wanted receipt is stored at an ORDINARY station
and appended to the log, its key retired, at an AGENT; a final outcome retires the voucher it concerns. A displaced entry raises
STORE-FULL. A voucher's key is its target with its serial, a receipt's its origin with its serial, and the voucher a receipt
concerns has the key of its origin with its voucher serial; APPLIED, BADTAG, BADFORM and EXPIRED are the final outcomes; and a
table without a key is the table with each slot that holds it empty. -/
def Obligations.CarryItemsAreTaken : Prop :=
  ((∀ v : Voucher, voucherKey v = { type := .voucher, kit := v.target, serial := v.serial })
    ∧ (∀ r : Receipt, receiptKey r = { type := .receipt, kit := r.origin, serial := r.serial }
      ∧ concernedKey r = { type := .voucher, kit := r.origin, serial := r.voucherSerial })
    ∧ (∀ o : ReceiptOutcome, isFinal o = true ↔ o = .applied ∨ o = .badTag ∨ o = .badForm ∨ o = .expired)
    ∧ ∀ (k : ItemKey) (l : List (Option VoucherEntry)), (vouchersWithout k l).length = l.length
      ∧ ∀ (n : Nat) (x : Option VoucherEntry), l[n]? = some x →
        (x.map (fun e => voucherKey e.voucher) = some k → (vouchersWithout k l)[n]? = some none)
        ∧ (x.map (fun e => voucherKey e.voucher) ≠ some k → (vouchersWithout k l)[n]? = some x))
  ∧ (∀ (asked : List ItemKey) (f : CarryFrame) (c : Controller),
    readItems asked f c = f.receipts.foldl (readReceipt asked) (f.vouchers.foldl (readVoucher asked) (c, [])))
  ∧ (∀ (asked l : List ItemKey) (i : VoucherItem) (c : Controller), cleanMemory c →
    (voucherOfItem i = none → readVoucher asked (c, l) i = (c, l))
    ∧ ∀ v w : Voucher, voucherOfItem i = some v → w = { v with hop := min 15 (v.hop + 1) } →
      (asked.contains (voucherKey v) = false →
        (v.target ≠ ownKit c → readVoucher asked (c, l) i = (c, l))
        ∧ (v.target = ownKit c → admitOwn c (voucherKey v) = .want none →
          readVoucher asked (c, l) i = (deliver w none c, l)))
      ∧ (asked.contains (voucherKey v) = true →
        (l.contains (voucherKey v) = true → readVoucher asked (c, l) i = (c, l ++ [voucherKey v]))
        ∧ (l.contains (voucherKey v) = false →
          (admissionTest c (reckoningOf c) (voucherKey v) v.hop = .holds →
            readVoucher asked (c, l) i = (c, l ++ [voucherKey v]))
          ∧ (admissionTest c (reckoningOf c) (voucherKey v) v.hop = .refuse → readVoucher asked (c, l) i = (c, l))
          ∧ (v.target = ownKit c → admitOwn c (voucherKey v) = .want none → readVoucher asked (c, l) i =
            (deliver w none c, if deliveryTaken w c then l ++ [voucherKey v] else l))
          ∧ ∀ n : Nat, v.target ≠ ownKit c →
            admissionTest c (reckoningOf c) (voucherKey v) v.hop = .want (some n) →
            readVoucher asked (c, l) i = ({ c with
              store := { c.store with
                vouchers := c.store.vouchers.set n (some { voucher := w, arrival := c.store.arrivals, isLocal := false })
                arrivals := min 4294967295 (c.store.arrivals + 1) }
              inTransit := c.inTransit ++ (if (c.store.vouchers.getD n none).isSome then
                [.conditionReport (.raised .storeFull)] else []) }, l ++ [voucherKey v]))))
  ∧ ∀ (asked l : List ItemKey) (i : ReceiptItem) (c : Controller), cleanMemory c →
    (receiptOfItem i = none → readReceipt asked (c, l) i = (c, l))
    ∧ ∀ r w : Receipt, receiptOfItem i = some r →
      w = { r with
        hop := min 15 (r.hop + 1)
        created := if r.created = 0 ∧ c.clock.timeState ≠ .unset then c.clock.day else r.created } →
      (asked.contains (receiptKey r) = false → readReceipt asked (c, l) i = (c, l))
      ∧ (asked.contains (receiptKey r) = true →
        (l.contains (receiptKey r) = true → readReceipt asked (c, l) i = (c, l ++ [receiptKey r]))
        ∧ (l.contains (receiptKey r) = false →
          (admissionTest c (reckoningOf c) (receiptKey r) r.hop = .holds →
            readReceipt asked (c, l) i = (c, l ++ [receiptKey r]))
          ∧ (admissionTest c (reckoningOf c) (receiptKey r) r.hop = .refuse → readReceipt asked (c, l) i = (c, l))
          ∧ (∀ n : Nat, isAgent c = false → admissionTest c (reckoningOf c) (receiptKey r) r.hop = .want (some n) →
            readReceipt asked (c, l) i = ({ c with
              store := { c.store with
                receipts := c.store.receipts.set n (some { receipt := w, arrival := c.store.arrivals, own := false })
                arrivals := min 4294967295 (c.store.arrivals + 1)
                vouchers := if isFinal r.outcome then vouchersWithout (concernedKey r) c.store.vouchers else c.store.vouchers
                retired := if isFinal r.outcome then retiredWith (concernedKey r) c.store.retired else c.store.retired }
              inTransit := c.inTransit ++ (if (c.store.receipts.getD n none).isSome then
                [.conditionReport (.raised .storeFull)] else []) }, l ++ [receiptKey r]))
          ∧ (isAgent c = true → admissionTest c (reckoningOf c) (receiptKey r) r.hop = .want none →
            readReceipt asked (c, l) i = ({ c with
              store := { c.store with
                log := c.store.log ++ [w]
                vouchers := if isFinal r.outcome then vouchersWithout (concernedKey r) c.store.vouchers else c.store.vouchers
                retired := (let kept := retiredWith (receiptKey r) c.store.retired
                  if isFinal r.outcome then retiredWith (concernedKey r) kept else kept) } }, l ++ [receiptKey r]))))

/-- The answer to a keypad evaluation that awaits one, as it goes in transit. -/
def Sys2Proof.Machine.answerSent (who : Option Nat) (a : Answer) : List Instr :=
  match who with
  | none => []
  | some n => [.outcomeAnswer n a]

/-- A delivered voucher is judged with its use-by day reconstructed while the day is known. With the right tag, well formed, of
an ELIGIBLE serial, not past its use-by day and with room it is staged: the staged record is the live one with the voucher's
effect and its serial marked, and the commit's first write begins with its image. BADTAG, BADFORM and EXPIRED refuse it for good
with a receipt that retires its key, or owe that receipt, and raise VOUCHER-REFUSED. A DUPLICATE is answered so and changes
nothing. AHEAD and FULL keep it in the list, with one receipt if one can be made. A receipt that brings the counter to its
reserve asks for a commit. While HELD it waits in the list as it is, while another application is in flight it waits unexamined;
a full list drops its highest entry for a newcomer of a lower serial, one not yet examined being answered NOT-TAKEN, and a list
that refuses it makes it NOT-TAKEN; one whose serial the list holds is answered PENDING. An account that does not listen takes none. A tag matches that is the voucher's own under the
key; ENERGY of 1 to 99,999, TIME of 1 to 9,600, and OWNERSHIP and CLEAR of 0 are well formed; the list takes an entry at its
serial's place; and a voucher is not taken, as the delivering block is told, exactly where the list refuses it while another
application is in flight, under HELD, or as AHEAD or FULL. A use-by day known whole stays as it is, a residue stays one while
the time is UNSET and is reconstructed against the day otherwise. The application's verified mark is the model's own
(notes/assumptions/28.md), and so is the arrival of an answer in transit (notes/assumptions/1.md). -/
def Obligations.DeliveredVouchers : Prop :=
  (∀ (st : TimeState) (day n : Nat), useByNow st day (.full n) = .full n ∧ fullUseBy (.full n) = n
    ∧ (st = .unset → useByNow st day (.residue n) = .residue n)
    ∧ (st ≠ .unset → useByNow st day (.residue n) = .full (reconstruct n day)))
  ∧ (∀ (key : List Byte) (v : Voucher), (tagMatches key v = true ↔ v.tag = voucherTag key v)
    ∧ (voucherWellFormed v = true ↔ v.kind = 1 ∧ 1 ≤ v.amount ∧ v.amount ≤ 99999
      ∨ v.kind = 2 ∧ 1 ≤ v.amount ∧ v.amount ≤ 9600 ∨ v.kind = 3 ∧ v.amount = 0 ∨ v.kind = 4 ∧ v.amount = 0))
  ∧ (∀ (e : PendingEntry) (l m : List PendingEntry), (∀ x : PendingEntry, x ∈ l → x.voucher.serial ≤ e.voucher.serial) →
    (∀ x : PendingEntry, m.head? = some x → e.voucher.serial < x.voucher.serial) → insertEntry e (l ++ m) = l ++ e :: m)
  ∧ (∀ (c : Controller) (v w : Voucher) (refused : Prop), accountOpen c →
    w = { v with useBy := useByNow c.clock.timeState c.clock.day v.useBy } →
    (refused ↔ 4 ≤ c.account.pendingOwn.length
      ∧ ∀ e : PendingEntry, c.account.pendingOwn.getLast? = some e → e.voucher.serial ≤ v.serial) →
    (deliveryTaken v c = false ↔
      (∀ e : PendingEntry, e ∈ c.account.pendingOwn → e.voucher.serial ≠ v.serial) ∧ refused
      ∧ (c.account.flight.isSome = true ∨ c.account.live.held = true
        ∨ tagMatches (ownKey c) w = true ∧ voucherWellFormed w = true
          ∧ (classify c.account.live.base c.account.live.marks v.serial = .ahead
            ∨ classify c.account.live.base c.account.live.marks v.serial = .eligible
              ∧ (c.clock.timeState = .set → c.clock.day ≤ fullUseBy w.useBy)
              ∧ (v.kind = 1 ∧ 999999 < c.account.live.energy + v.amount
                ∨ v.kind = 2 ∧ 34560000 < c.account.live.timeCredit + 3600 * v.amount)))))
  ∧ (∀ (c : Controller) (v : Voucher) (who : Option Nat), (c.account.live.commissioned = false ∨ c.decommissioning = true) →
    deliver v who c = c ∧ deliveryTaken v c = false)
  ∧ (∀ (c : Controller) (v : Voucher) (who : Option Nat), accountOpen c →
    (∀ e : PendingEntry, entryWith v.serial c.account.pendingOwn = some e →
      deliver v who c = { c with inTransit := c.inTransit ++ answerSent who .pending })
    ∧ (entryWith v.serial c.account.pendingOwn = none → c.account.flight.isSome = true →
      (c.account.pendingOwn.length < 4 → deliver v who c = { c with
        account := { c.account with
          pendingOwn := insertEntry ⟨v, false, false, true, none, who⟩ c.account.pendingOwn
          pass := c.account.pass.map (fun l => l.filter (fun n => !decide (n = v.serial))) } })
      ∧ (4 ≤ c.account.pendingOwn.length → (∀ e : PendingEntry, c.account.pendingOwn.getLast? = some e →
          e.voucher.serial ≤ v.serial) →
        deliver v who c = { c with inTransit := c.inTransit ++ answerSent who .notTaken })
      ∧ ∀ e : PendingEntry, 4 ≤ c.account.pendingOwn.length → c.account.pendingOwn.getLast? = some e →
        v.serial < e.voucher.serial → deliver v who c = { c with
          account := { c.account with
            pendingOwn := insertEntry ⟨v, false, false, true, none, who⟩ c.account.pendingOwn.dropLast
            pass := c.account.pass.map (fun l => l.filter (fun n => !decide (n = v.serial))) }
          inTransit := c.inTransit ++ (if e.unexamined then answerSent e.answerTo .notTaken else []) })
    ∧ (entryWith v.serial c.account.pendingOwn = none → c.account.live.held = true → c.account.flight = none →
      c.account.pass = none → ∀ (l : List PendingEntry) (a : Answer) (dropped : List Instr),
      (c.account.pendingOwn.length < 4 ∧ a = .pending ∧ dropped = []
          ∧ l = insertEntry ⟨v, false, false, false, none, none⟩ c.account.pendingOwn
        ∨ ∃ e : PendingEntry, 4 ≤ c.account.pendingOwn.length ∧ c.account.pendingOwn.getLast? = some e
          ∧ (v.serial < e.voucher.serial ∧ a = .pending
              ∧ dropped = (if e.unexamined then answerSent e.answerTo .notTaken else [])
              ∧ l = insertEntry ⟨v, false, false, false, none, none⟩ c.account.pendingOwn.dropLast
            ∨ e.voucher.serial ≤ v.serial ∧ a = .notTaken ∧ dropped = [] ∧ l = c.account.pendingOwn)) →
      deliver v who c = { c with
        account := { c.account with
          pendingOwn := l, passDue := c.account.passDue || l.any (fun e => e.unexamined) }
        inTransit := c.inTransit ++ dropped ++ answerSent who a }))
  ∧ ∀ (c : Controller) (v w : Voucher) (who : Option Nat), accountOpen c → c.account.live.held = false →
    c.account.flight = none → w = { v with useBy := useByNow c.clock.timeState c.clock.day v.useBy } →
    (∀ r : Record, entryWith v.serial c.account.pendingOwn = none → tagMatches (ownKey c) w = true →
      voucherWellFormed w = true → classify c.account.live.base c.account.live.marks v.serial = .eligible →
      (c.clock.timeState = .set → c.clock.day ≤ fullUseBy w.useBy) →
      (v.kind = 1 → c.account.live.energy + v.amount ≤ 999999) →
      (v.kind = 2 → c.account.live.timeCredit + 3600 * v.amount ≤ 34560000) →
      r = { c.account.live with
        energy := if v.kind = 1 then c.account.live.energy + v.amount else if v.kind = 4 then 0 else c.account.live.energy
        timeCredit := if v.kind = 2 then c.account.live.timeCredit + 3600 * v.amount else if v.kind = 4 then 0
          else c.account.live.timeCredit
        owned := if v.kind = 3 then true else if v.kind = 4 then false else c.account.live.owned
        base := (markSerial c.account.live.base c.account.live.marks v.serial).1
        marks := (markSerial c.account.live.base c.account.live.marks v.serial).2 } →
      c.journal.slot = none → c.journal.writeState = .idle → c.journal.newestSeq < 4294967294 → c.power.writeSafe = true →
      deliver v who c = { c with
        account := { c.account with
          staged := some r
          flight := some {
            voucher := w, unchecked := !decide (c.clock.timeState = .set), answerTo := who
            verified := false } }
        journal := { c.journal with
          periodicPending := false, stagedWaiting := false, writeState := .writing
          pages := c.journal.pages.set ((c.journal.newestPage + 1) % 16) .torn
          slot := some {
            kind := .staged, attempt := .first, target := (c.journal.newestPage + 1) % 16, overtaken := false
            image := {
              sequence := c.journal.newestSeq + 1, kit := ownKit c, commissioned := true, owned := r.owned
              energy := r.energy, timeCredit := r.timeCredit, lifeline := r.lifeline, lifelineDay := r.lifelineDay
              base := r.base, marks := r.marks
              reserve := if c.account.live.counter = some c.account.live.reserve ∧ c.account.live.reserve < 65536
                then c.account.live.reserve + 16 else c.account.live.reserve
              chargeRem := c.meter.chargeRem, lifetimeRem := c.meter.lifetimeRem, lifetime := r.lifetime
              bypass := r.bypass, lastStatus := r.lastStatus } } } })
    ∧ (accountQuiet c →
      (tagMatches (ownKey c) w = true → voucherWellFormed w = true → c.account.live.settled v.serial →
        deliver v who c = { c with inTransit := c.inTransit ++ answerSent who .duplicate })
      ∧ (∀ (o : ReceiptOutcome) (a : Answer),
        (tagMatches (ownKey c) w = false ∧ o = .badTag ∧ a = .badTag
          ∨ tagMatches (ownKey c) w = true ∧ voucherWellFormed w = false ∧ o = .badForm ∧ a = .badForm
          ∨ tagMatches (ownKey c) w = true ∧ voucherWellFormed w = true
            ∧ classify c.account.live.base c.account.live.marks v.serial = .eligible ∧ c.clock.timeState = .set
            ∧ fullUseBy w.useBy < c.clock.day ∧ o = .expired ∧ a = .expired) →
        (∀ n k : Nat, receiptRoom c c.account.live n k → deliver v who c = requestIfReserveReached { c with
          account := { c.account with
            live := { c.account.live with counter := some (n + 1) }
            staged := c.account.staged.map (fun r => { r with counter := r.counter.map (· + 1) })
            conditions := setWith .voucherRefused c.account.conditions }
          store := { c.store with
            vouchers := vouchersWithout ⟨.voucher, ownKit c, v.serial⟩ c.store.vouchers
            receipts := c.store.receipts.set k (some {
              receipt := ownReceipt o false v.serial n c.account.live (setWith .voucherRefused c.account.conditions) c
              arrival := c.store.arrivals, own := true })
            retired := retiredWith ⟨.voucher, ownKit c, v.serial⟩ c.store.retired
            arrivals := min 4294967295 (c.store.arrivals + 1) }
          inTransit := c.inTransit ++ answerSent who a })
        ∧ (c.account.live.counter = some c.account.live.reserve → deliver v who c = { c with
          account := { c.account with
            conditions := setWith .voucherRefused c.account.conditions
            pendingOwn := [⟨w, false, false, false, some ⟨o, false⟩, none⟩] }
          inTransit := c.inTransit ++ answerSent who a }))
      ∧ ∀ (o : ReceiptOutcome) (u : Bool), tagMatches (ownKey c) w = true → voucherWellFormed w = true →
        (classify c.account.live.base c.account.live.marks v.serial = .ahead ∧ o = .ahead ∧ u = false
          ∨ classify c.account.live.base c.account.live.marks v.serial = .eligible
            ∧ (c.clock.timeState = .set → c.clock.day ≤ fullUseBy w.useBy)
            ∧ (v.kind = 1 ∧ 999999 < c.account.live.energy + v.amount
              ∨ v.kind = 2 ∧ 34560000 < c.account.live.timeCredit + 3600 * v.amount)
            ∧ o = .full ∧ u = !decide (c.clock.timeState = .set)) →
        (∀ n k : Nat, receiptRoom c c.account.live n k → deliver v who c = requestIfReserveReached { c with
          account := { c.account with
            live := { c.account.live with counter := some (n + 1) }
            staged := c.account.staged.map (fun r => { r with counter := r.counter.map (· + 1) })
            pendingOwn := [⟨w, true, false, false, none, none⟩] }
          store := { c.store with
            receipts := c.store.receipts.set k (some {
              receipt := ownReceipt o u v.serial n c.account.live c.account.conditions c
              arrival := c.store.arrivals, own := true })
            arrivals := min 4294967295 (c.store.arrivals + 1) }
          inTransit := c.inTransit ++ answerSent who .pending })
        ∧ (c.account.live.counter = some c.account.live.reserve → deliver v who c = { c with
          account := { c.account with pendingOwn := [⟨w, false, false, false, none, none⟩] }
          inTransit := c.inTransit ++ answerSent who .pending }))

/-! ### The Radio Line Interface (R143 to R154) -/

/-- The key that a frame's bytes hold from the byte `a` on, the first being byte 0. -/
def Sys2Proof.Machine.keyAt (bs : List Byte) (a : Nat) : AirKey := ⟨fieldAt bs a 1, fieldAt bs (a + 1) 4, fieldAt bs (a + 5) 2⟩

/-- The header that a frame's bytes hold. -/
def Sys2Proof.Machine.headerAt (bs : List Byte) : FrameHeader :=
  { sender := fieldAt bs 2 4, addressee := fieldAt bs 6 4, day := fieldAt bs 10 2
    agent := decide (fieldAt bs 12 1 % 2 = 1), timeSet := decide (fieldAt bs 12 1 / 2 % 2 = 1)
    relaySuspended := decide (fieldAt bs 12 1 / 4 % 2 = 1), exchange := fieldAt bs 13 1 }

/-- The voucher item that a frame's bytes hold from the byte `a` on. -/
def Sys2Proof.Machine.voucherItemAt (bs : List Byte) (a : Nat) : VoucherItem :=
  { target := fieldAt bs a 4, serial := fieldAt bs (a + 4) 2, kind := fieldAt bs (a + 6) 1, amount := fieldAt bs (a + 7) 3
    useBy := fieldAt bs (a + 10) 2, tag := fieldAt bs (a + 12) 4, hop := fieldAt bs (a + 16) 1 }

/-- The receipt item that a frame's bytes hold from the byte `a` on. -/
def Sys2Proof.Machine.receiptItemAt (bs : List Byte) (a : Nat) : ReceiptItem :=
  { origin := fieldAt bs a 4, serial := fieldAt bs (a + 4) 2, created := fieldAt bs (a + 6) 2
    outcomeByte := fieldAt bs (a + 8) 1, voucherSerial := fieldAt bs (a + 9) 2, stateCode := fieldAt bs (a + 11) 1
    energy := fieldAt bs (a + 12) 3, hours := fieldAt bs (a + 15) 2, lifetime := fieldAt bs (a + 17) 4
    conditions := fieldAt bs (a + 21) 2, bypass := fieldAt bs (a + 23) 2, corrected := fieldAt bs (a + 25) 1
    uncorrected := fieldAt bs (a + 26) 1, discards := fieldAt bs (a + 27) 2, hop := fieldAt bs (a + 29) 1 }

/-- A frame's bytes pass the checks of kind, class and field limits (R152, checks 3 to 5). -/
def Sys2Proof.Machine.frameInLimits (bs : List Byte) : Prop :=
  1 ≤ fieldAt bs 2 4 ∧ fieldAt bs 2 4 ≤ 99999999
  ∧ (fieldAt bs 0 1 = 1 ∧ fieldAt bs 1 1 = 3 ∧ fieldAt bs 21 1 ≤ 10 ∧ fieldAt bs 19 1 ≤ 48 ∧ fieldAt bs 20 1 ≤ 48
      ∧ fieldAt bs 14 2 = fieldAt bs 10 2
    ∨ fieldAt bs 0 1 = 2 ∧ fieldAt bs 1 1 = 2 ∧ fieldAt bs 14 1 ≤ 6
    ∨ fieldAt bs 0 1 = 3 ∧ fieldAt bs 1 1 = 3 ∧ fieldAt bs 16 1 ≤ 4 ∧ fieldAt bs 17 1 ≤ fieldAt bs 16 1 ∧ fieldAt bs 15 1 ≤ 1
    ∨ fieldAt bs 0 1 = 4 ∧ fieldAt bs 1 1 = 1 ∧ fieldAt bs 15 1 ≤ 4)

/-- The frame that bytes within the limits hold, by the layouts of R145 and R17. -/
def Sys2Proof.Machine.frameAt (bs : List Byte) : AirFrame :=
  if fieldAt bs 0 1 = 1 then .hail {
    header := headerAt bs, day := fieldAt bs 14 2, second := fieldAt bs 16 3, freeVouchers := fieldAt bs 19 1
    freeReceipts := fieldAt bs 20 1
    offers := (List.range (fieldAt bs 21 1)).map (fun j => ⟨keyAt bs (22 + 8 * j), fieldAt bs (29 + 8 * j) 1⟩) }
  else if fieldAt bs 0 1 = 2 then .ask {
    header := headerAt bs, keys := (List.range (fieldAt bs 14 1)).map (fun j => keyAt bs (15 + 7 * j)) }
  else if fieldAt bs 0 1 = 3 then .carry {
    header := headerAt bs, burst := fieldAt bs 14 1, last := decide (fieldAt bs 15 1 = 1)
    vouchers := (List.range (fieldAt bs 17 1)).map (fun j => voucherItemAt bs (18 + 17 * j))
    receipts := (List.range (fieldAt bs 16 1 - fieldAt bs 17 1)).map
      (fun j => receiptItemAt bs (18 + 17 * fieldAt bs 17 1 + 30 * j)) }
  else .took {
    header := headerAt bs, burst := fieldAt bs 14 1
    keys := (List.range (fieldAt bs 15 1)).map (fun j => keyAt bs (16 + 7 * j)) }

/-- In DOZE a channel sample turns the enable on, and channel-busy in it wakes the station to LISTEN for the listen hold; its
end turns it off. A start mark in LISTEN begins a reception, and a bad class or a channel gone free ends it, counted as a
discard. The hold's end brings DOZE when both machines are IDLE and the slots empty, and is begun again otherwise. The bytes
that follow a start mark are collected: a length class above 3 in the second header byte discards the frame, and the frame is
complete with the bytes its class gives. A complete frame ends the reception: a failed CRC or later check discards and counts
it, the station's own frame is discarded uncounted, and a good frame is handed on, one for this station or for all beginning
the listen hold again. The checks fail, in this order, by the CRC, by the station's own number as sender, and by a kind, a class,
a sender's number, a count, a flag or a day of a HAIL outside its limits; a frame that passes is good and is read field by field
from its bytes, its vouchers before its receipts. That FRAME_COMPLETE carries any number of the bytes that follow, so that one
with fewer than the frame's only lengthens the reception, is the model's choice (notes/assumptions/24.md). -/
def Obligations.RadioReceives : Prop :=
  (∀ (kit : Nat) (bs : List Byte),
    (crcPasses bs = false → judgeFrame kit bs = .discarded true)
    ∧ (crcPasses bs = true → fieldAt bs 2 4 = kit → judgeFrame kit bs = .discarded false)
    ∧ (crcPasses bs = true → fieldAt bs 2 4 ≠ kit → bs.length = 16 + 16 * 2 ^ fieldAt bs 1 1 →
      (frameInLimits bs → judgeFrame kit bs = .good (frameAt bs))
      ∧ (¬ frameInLimits bs → judgeFrame kit bs = .discarded true)))
  ∧ (∀ s : State, s.ctl.power.mainOn = true →
    (s.ctl.radio.active = true → s.ctl.radio.rx = .doze →
      exec (.dozeSample true) s = .next { s with ctl := { s.ctl with
        power := { s.ctl.power with channelBusy := true }
        radio := { s.ctl.radio with rx := .listen, hold := some (listenMs s.ctl), sampling := false } } }
      ∧ exec (.dozeSample false) s = .next { s with ctl := { s.ctl with
        power := { s.ctl.power with channelBusy := false }, radio := { s.ctl.radio with sampling := true } } })
    ∧ exec .dozeSampleEnd s = .next { s with ctl := { s.ctl with radio := { s.ctl.radio with sampling := false } } }
    ∧ (s.ctl.radio.active = true → s.ctl.radio.rx = .listen → exec .startMarkFound s = .next { s with ctl := { s.ctl with
        radio := { s.ctl.radio with rx := .receiving, reception := some [] } } })
    ∧ (s.ctl.radio.rx ≠ .listen → exec .startMarkFound s = .next s)
    ∧ (s.ctl.radio.rx = .receiving →
      exec .headerClassInvalid s = .next { s with ctl := { s.ctl with radio := { s.ctl.radio with
        rx := .listen, reception := none, discards := min 65535 (s.ctl.radio.discards + 1) } } }
      ∧ exec .frameTruncated s = .next { s with ctl := { s.ctl with
        power := { s.ctl.power with channelBusy := false }
        radio := { s.ctl.radio with
          rx := .listen, reception := none, discards := min 65535 (s.ctl.radio.discards + 1) } } })
    ∧ (s.ctl.radio.hold.isSome = true →
      (s.ctl.radio.rx = .listen ∧ s.ctl.exchange.hailer = .idle ∧ s.ctl.exchange.asker = .idle
          ∧ slotsEmpty s.ctl.channel = true →
        exec .listenHoldExpiry s = .next { s with ctl := { s.ctl with
          radio := { s.ctl.radio with rx := .doze, hold := none } } })
      ∧ (s.ctl.radio.rx ≠ .listen ∨ s.ctl.exchange.hailer ≠ .idle ∨ s.ctl.exchange.asker ≠ .idle
          ∨ slotsEmpty s.ctl.channel = false →
        exec .listenHoldExpiry s = .next { s with ctl := { s.ctl with
          radio := { s.ctl.radio with hold := some (listenMs s.ctl) } } })))
  ∧ (∀ (s : State) (bytes : List Byte), (s.ctl.radio.active = false ∨ s.ctl.radio.rx ≠ .receiving) →
      exec (.frameComplete bytes) s = .next s)
  ∧ ∀ (s : State) (bytes got : List Byte) (c : Controller), s.ctl.power.mainOn = true → s.ctl.radio.active = true →
    s.ctl.radio.rx = .receiving → got = s.ctl.radio.reception.getD [] ++ bytes →
    c = { s.ctl with radio := { s.ctl.radio with rx := .listen, reception := none } } →
    (2 ≤ got.length → 3 < fieldAt got 1 1 → exec (.frameComplete bytes) s = .next { s with ctl := { c with
      radio := { c.radio with discards := min 65535 (c.radio.discards + 1) } } })
    ∧ ((got.length < 2 ∨ fieldAt got 1 1 ≤ 3 ∧ got.length < 16 + 16 * 2 ^ fieldAt got 1 1) →
      exec (.frameComplete bytes) s = .next { s with ctl := { s.ctl with
        radio := { s.ctl.radio with reception := some got } } })
    ∧ ∀ whole : List Byte, fieldAt got 1 1 ≤ 3 → 16 + 16 * 2 ^ fieldAt got 1 1 ≤ got.length →
      whole = got.take (16 + 16 * 2 ^ fieldAt got 1 1) →
      ((crcPasses whole = false ∨ judgeFrame (ownKit s.ctl) whole = .discarded true) →
        exec (.frameComplete bytes) s = .next { s with ctl := { c with
          radio := { c.radio with discards := min 65535 (c.radio.discards + 1) } } })
      ∧ (crcPasses whole = true → fieldAt whole 2 4 = ownKit s.ctl →
        exec (.frameComplete bytes) s = .next { s with ctl := c })
      ∧ ∀ f : AirFrame, judgeFrame (ownKit s.ctl) whole = .good f →
        exec (.frameComplete bytes) s = .next { s with ctl := { c with
          radio := { c.radio with
            hold := if (frameHeader f).2.addressee = ownKit s.ctl ∨ (frameHeader f).2.addressee = 0 then some (listenMs s.ctl)
              else s.ctl.radio.hold }
          inTransit := s.ctl.inTransit ++ (match f with
            | .hail g => [.hailReceived g, .hailTimeArrival g.header.sender g.header.agent g.header.timeSet g.day g.second]
            | .ask g => [.askReceived g]
            | .carry g => [.carryReceived g s.ctl.power.channelBusy]
            | .took g => [.tookReceived g s.ctl.power.channelBusy]) } }

/-! ### The outputs -/

/-- A frame whose fields fit their bytes and limits, of any kind. -/
def Sys2Proof.Machine.frameGood : AirFrame → Bool
  | .hail g => g.good
  | .ask g => g.good
  | .carry g => g.good
  | .took g => g.good

/-- The outputs follow the state. The gate holds the switch closed exactly while the main domain is powered and the switch is
CLOSED, and on a safe switch only in an allowed account state. The byte 53h goes out on the sense line at a second event
while SAMPLING. A frame on the air is sent after a preamble of W + 20 ms for a HAIL or an ASK and of 4 ms for a CARRY or a
TOOK, with the start mark 2Dh D4h before its 144, 80 or 48 bytes. The LEDs show the display queue while SHOWING, else the
account state's pattern, with the red LED lit in a flash, or dark in one beside a red pattern. That they are dark while the
main domain has no power is the model's choice (notes/assumptions/39.md), and so is that a flash whose pattern changes in the
midst of it goes by the pattern of the moment (41.md). -/
def Obligations.OutputsFollowTheState : Prop :=
  (∀ c : Controller, (gateClosed c = true ↔ c.power.mainOn = true ∧ c.switch.state = .closed)
    ∧ (SwitchSafe c.switch → gateClosed c = true → c.switch.known = .owned ∨ c.switch.known = .timed
      ∨ c.switch.known = .credited ∨ c.switch.known = .low ∨ c.switch.known = .lifeline))
  ∧ (∀ s t : State, s.ctl.power.mainOn = true → exec .secondEventMeter s = .next t →
    (s.ctl.meter.mode = .sampling → senseOut t.ctl = some 0x53#8)
    ∧ (s.ctl.meter.mode = .idle → s.ctl.meter.request = false → senseOut t.ctl = none))
  ∧ (∀ (c : Controller) (p : Params) (f : AirFrame), c.params = some p → c.radio.onAir = some f → frameGood f = true →
    ∃ T : Transmission, transmitted c = some T
      ∧ T.preambleMs = (match f with
        | .hail _ => p.wake + 20
        | .ask _ => p.wake + 20
        | .carry _ => 4
        | .took _ => 4)
      ∧ T.bytes = 0x2D#8 :: 0xD4#8 :: frameBytes f
      ∧ T.bytes.length = (match f with
        | .hail _ => 146
        | .ask _ => 82
        | .carry _ => 146
        | .took _ => 50))
  ∧ ∀ c : Controller,
    (c.power.mainOn = false → indicator c = (.dark, none))
    ∧ (c.power.mainOn = true → c.keypad.entry = .showing →
      (∀ (n : Nat) (g : BlinkGroup) (l : List BlinkGroup), c.keypad.phase = some (.lit n) → c.keypad.display = g :: l →
        indicator c = (.lit g.colour, none))
      ∧ ((∀ n : Nat, c.keypad.phase ≠ some (.lit n)) → indicator c = (.dark, none)))
    ∧ (c.power.mainOn = true → c.keypad.entry ≠ .showing →
      ∀ (p : Light) (red : Bool), p = (match c.keypad.known with
          | .owned => .steady .green
          | .timed => .steady .green
          | .credited => .slowBlink .green
          | .low => .steady .amber
          | .lifeline => .slowBlink .amber
          | .locked => .steady .red
          | .held => .fastBlink .red
          | .uncommissioned => .fastBlink .amber) →
        red = (decide (c.keypad.known = .locked) || decide (c.keypad.known = .held)) →
        (c.keypad.flash = false → indicator c = (p, none))
        ∧ (c.keypad.flash = true → indicator c = (p, some (if red then .dark else .lit .red))))

/-! ### The Keypad and Indicator Unit (R180 to R187) -/

/-- The Controller with a result going to be shown: the display queue, the dark lead, and the timers of entry stopped. -/
def Sys2Proof.Machine.resultShown (q : List BlinkGroup) (c : Controller) : Controller :=
  { c with keypad := { c.keypad with
      entry := .showing, display := q, phase := some .lead, answerWait := false, interKey := false, flash := false } }

/-- The Controller with the keypad in a collecting state with a buffer, its inter-key timer restarted. -/
def Sys2Proof.Machine.keyTaken (st : EntryState) (ds : List (Fin 10)) (c : Controller) : Controller :=
  { c with keypad := { c.keypad with entry := st, buffer := ds, interKey := true } }

/-- The own voucher that 21 typed digits spell, its use-by day reconstructed while the day is known. -/
def Sys2Proof.Machine.typedVoucher (ds : List (Fin 10)) (c : Controller) : Voucher :=
  { target := ownKit c, serial := digitsAt ds 0 4, kind := digitsAt ds 4 1, amount := digitsAt ds 5 5
    useBy := if c.clock.timeState = .unset then .residue (digitsAt ds 10 3)
      else .full (reconstruct (digitsAt ds 10 3) c.clock.day)
    tag := digitsAt ds 13 8, hop := 0 }

/-- Key presses: a star begins an entry, begins it anew or turns to a foreign target; digits are appended up to 30, the eighth
of a target turning to the code; keys are ignored in EVALUATING and SHOWING. A hash reads the sequence: refusal 6 while
UNCOMMISSIONED, the four queries, refusal 1 for any other single digit, a wrong length, a target of 0 or a serial of 0000. An
own code, typed as such or behind the own target, is delivered to the account under a new evaluation, or answered with refusal 6
where it is not taken. A foreign one is refused with code 7 while the time is UNSET, else stored LOCAL with hop 0, accepted
where it is held already, refused with code 2 where it is retired and with code 6 where it has no room. The inter-key timeout
empties the buffer. The condition query shows the highest code pending, 0 where none is; a number is shown by its decimal
digits, most significant first and without leading zeros, each as that many amber blinks and 0 as ten. A query of the account
whose record has a double error shows refusal 6, whatever else the read brings. The evaluation's number is the model's own
(notes/assumptions/16.md). -/
def Obligations.KeysMakeSequences : Prop :=
  (∀ l : List Condition, (l = [] → highestCode l = 0)
    ∧ (l ≠ [] → (∃ x : Condition, x ∈ l ∧ highestCode l = tableCode x)
      ∧ ∀ x : Condition, x ∈ l → tableCode x ≤ highestCode l))
  ∧ (∀ v : Nat, v < 10000000000 → ∃ ds : List Nat, ds ≠ [] ∧ (∀ d : Nat, d ∈ ds → d < 10)
    ∧ ds.foldl (fun n d => 10 * n + d) 0 = v ∧ (ds.head? = some 0 → ds = [0])
    ∧ numberGroups v = ds.map (fun d => ⟨.amber, if d = 0 then 10 else d⟩))
  ∧ ∀ s : State, s.ctl.power.mainOn = true →
    (s.ctl.keypad.entry = .idle → exec (.keyPress .star) s = .next { s with ctl := keyTaken .entry [] s.ctl }
      ∧ exec (.keyPress .hash) s = .next s ∧ ∀ d, exec (.keyPress (.digit d)) s = .next s)
    ∧ (s.ctl.keypad.entry = .entry ∨ s.ctl.keypad.entry = .foreignCode → ∀ d, exec (.keyPress (.digit d)) s =
        .next { s with ctl := (keyTaken s.ctl.keypad.entry
          (if s.ctl.keypad.buffer.length < 30 then s.ctl.keypad.buffer ++ [d] else s.ctl.keypad.buffer) s.ctl) })
    ∧ (s.ctl.keypad.entry = .foreignTarget → s.ctl.keypad.buffer.length < 8 → ∀ d, exec (.keyPress (.digit d)) s =
        .next { s with ctl := (keyTaken (if s.ctl.keypad.buffer.length = 7 then .foreignCode else .foreignTarget)
          (s.ctl.keypad.buffer ++ [d]) s.ctl) })
    ∧ (s.ctl.keypad.entry = .entry → exec (.keyPress .star) s =
        .next { s with ctl := keyTaken (if s.ctl.keypad.buffer = [] then .foreignTarget else .entry) [] s.ctl })
    ∧ (s.ctl.keypad.entry = .foreignTarget ∨ s.ctl.keypad.entry = .foreignCode →
      exec (.keyPress .star) s = .next { s with ctl := keyTaken .entry [] s.ctl })
    ∧ (s.ctl.keypad.entry = .evaluating ∨ s.ctl.keypad.entry = .showing → ∀ k, exec (.keyPress k) s = .next s)
    ∧ (s.ctl.keypad.interKey = true → exec .interKeyTimeout s = .next { s with ctl := { s.ctl with
      keypad := { s.ctl.keypad with entry := .idle, buffer := [], interKey := false } } })
    ∧ ∀ c : Controller, c = { s.ctl with keypad := { s.ctl.keypad with buffer := [], interKey := false } } →
      (s.ctl.keypad.entry = .entry ∨ s.ctl.keypad.entry = .foreignTarget ∨ s.ctl.keypad.entry = .foreignCode →
        s.ctl.account.state = .uncommissioned ∨ s.ctl.decommissioning = true →
        exec (.keyPress .hash) s = .next { s with ctl := resultShown [⟨.red, 6⟩] c })
      ∧ (s.ctl.account.state ≠ .uncommissioned → s.ctl.decommissioning = false → s.ctl.keypad.entry = .entry →
        s.ctl.keypad.buffer = [0] ∨ s.ctl.keypad.buffer = [1] →
        ∀ (w : BadWord) (a b : Nat), w ∈ s.ctl.check.bad → inAccount w.unit = true → w.flips = [a, b] →
        exec (.keyPress .hash) s = .next { s with ctl := resultShown [⟨.red, 6⟩] (readAccount c) })
      ∧ (s.ctl.account.state ≠ .uncommissioned → s.ctl.decommissioning = false → cleanMemory s.ctl →
        (s.ctl.keypad.entry = .entry →
          (s.ctl.keypad.buffer = [] → exec (.keyPress .hash) s =
            .next { s with ctl := resultShown (numberGroups (highestCode s.ctl.account.conditions)) c })
          ∧ (s.ctl.keypad.buffer = [0] → exec (.keyPress .hash) s =
            .next { s with ctl := resultShown (numberGroups s.ctl.account.live.energy) c })
          ∧ (s.ctl.keypad.buffer = [1] → exec (.keyPress .hash) s =
            .next { s with ctl := resultShown (numberGroups (s.ctl.account.live.timeCredit / 86400)) c })
          ∧ (s.ctl.keypad.buffer = [2] → exec (.keyPress .hash) s =
            .next { s with ctl := resultShown (numberGroups (ownKit s.ctl)) c })
          ∧ (∀ d : Fin 10, 2 < d.val → s.ctl.keypad.buffer = [d] → exec (.keyPress .hash) s =
            .next { s with ctl := resultShown [⟨.red, 1⟩] c })
          ∧ (1 < s.ctl.keypad.buffer.length → s.ctl.keypad.buffer.length ≠ 21 →
            exec (.keyPress .hash) s = .next { s with ctl := resultShown [⟨.red, 1⟩] c }))
        ∧ (s.ctl.keypad.entry = .foreignTarget ∨ s.ctl.keypad.entry = .foreignCode ∧ s.ctl.keypad.buffer.length ≠ 29 →
          exec (.keyPress .hash) s = .next { s with ctl := resultShown [⟨.red, 1⟩] c })
        ∧ (∀ ds : List (Fin 10),
          (s.ctl.keypad.entry = .entry ∧ s.ctl.keypad.buffer.length = 21 ∧ ds = s.ctl.keypad.buffer
            ∨ s.ctl.keypad.entry = .foreignCode ∧ s.ctl.keypad.buffer.length = 29
              ∧ digitsAt s.ctl.keypad.buffer 0 8 = ownKit s.ctl ∧ ownKit s.ctl ≠ 0 ∧ ds = s.ctl.keypad.buffer.drop 8) →
          (digitsAt ds 0 4 = 0 → exec (.keyPress .hash) s = .next { s with ctl := resultShown [⟨.red, 1⟩] c })
          ∧ ∀ (v : Voucher) (d : Controller), digitsAt ds 0 4 ≠ 0 → v = typedVoucher ds s.ctl →
            d = deliver v (some (s.ctl.keypad.evaluation + 1)) c →
            (deliveryTaken v c = true → exec (.keyPress .hash) s = .next { s with ctl := { d with
              keypad := { d.keypad with
                entry := .evaluating, answerWait := true, evaluation := s.ctl.keypad.evaluation + 1 } } })
            ∧ (deliveryTaken v c = false → exec (.keyPress .hash) s = .next { s with ctl := resultShown [⟨.red, 6⟩] { d with
              keypad := { d.keypad with evaluation := s.ctl.keypad.evaluation + 1 } } }))
        ∧ (s.ctl.keypad.entry = .foreignCode → s.ctl.keypad.buffer.length = 29 →
          digitsAt s.ctl.keypad.buffer 0 8 = 0 ∨ digitsAt s.ctl.keypad.buffer 0 8 ≠ ownKit s.ctl
            ∧ digitsAt s.ctl.keypad.buffer 8 4 = 0 →
          exec (.keyPress .hash) s = .next { s with ctl := resultShown [⟨.red, 1⟩] c })
        ∧ (s.ctl.keypad.entry = .foreignCode → s.ctl.keypad.buffer.length = 29 → digitsAt s.ctl.keypad.buffer 0 8 ≠ 0 →
          digitsAt s.ctl.keypad.buffer 0 8 ≠ ownKit s.ctl → digitsAt s.ctl.keypad.buffer 8 4 ≠ 0 →
          (s.ctl.clock.timeState = .unset →
            exec (.keyPress .hash) s = .next { s with ctl := resultShown [⟨.red, 7⟩] c })
          ∧ ∀ v : Voucher, s.ctl.clock.timeState ≠ .unset →
            v = { typedVoucher (s.ctl.keypad.buffer.drop 8) s.ctl with target := digitsAt s.ctl.keypad.buffer 0 8 } →
            (holdsVoucher s.ctl (voucherKey v) = true →
              exec (.keyPress .hash) s = .next { s with ctl := resultShown [⟨.green, 2⟩] c })
            ∧ (holdsVoucher s.ctl (voucherKey v) = false →
              (s.ctl.store.retired.contains (voucherKey v) = true →
                exec (.keyPress .hash) s = .next { s with ctl := resultShown [⟨.red, 2⟩] c })
              ∧ (s.ctl.store.retired.contains (voucherKey v) = false →
                (roomFor 0 (voucherView s.ctl) = none →
                  exec (.keyPress .hash) s = .next { s with ctl := resultShown [⟨.red, 6⟩] c })
                ∧ ∀ n : Nat, roomFor 0 (voucherView s.ctl) = some n →
                  exec (.keyPress .hash) s = .next { s with ctl := resultShown [⟨.green, 2⟩] { c with
                    store := { s.ctl.store with
                      vouchers := s.ctl.store.vouchers.set n
                        (some { voucher := v, arrival := s.ctl.store.arrivals, isLocal := true })
                      arrivals := min 4294967295 (s.ctl.store.arrivals + 1) }
                    inTransit := s.ctl.inTransit ++ (if (s.ctl.store.vouchers.getD n none).isSome then
                      [.conditionReport (.raised .storeFull)] else []) } }))))

/-- The outcome answer to the evaluation in progress is shown, any other is discarded; the answer wait's end shows refusal 5.
The showing is dark first, then each group lit and dark blink by blink, with a gap between groups, and IDLE after the last.
The flash timer outside SHOWING flashes while the highest code pending is 9 or more, and the display timer ends the flash.
The evaluation's number is the model's own (notes/assumptions/16.md). -/
def Obligations.AnswersAreShown : Prop :=
  ∀ s : State, s.ctl.power.mainOn = true →
    (∀ (n : Nat) (a : Answer), s.ctl.keypad.entry = .evaluating → s.ctl.keypad.answerWait = true →
      s.ctl.keypad.evaluation = n → exec (.outcomeAnswer n a) s = .next { s with ctl := (
        resultShown (match a with
          | .applied => [⟨.green, 2⟩]
          | .badForm => [⟨.red, 1⟩]
          | .duplicate => [⟨.red, 2⟩]
          | .badTag => [⟨.red, 3⟩]
          | .expired => [⟨.red, 4⟩]
          | .pending => [⟨.red, 5⟩]
          | .notTaken => [⟨.red, 6⟩]) (arrive (.outcomeAnswer n a) s.ctl)) })
    ∧ (∀ (n : Nat) (a : Answer), s.ctl.keypad.entry ≠ .evaluating ∨ s.ctl.keypad.answerWait = false
        ∨ s.ctl.keypad.evaluation ≠ n →
      exec (.outcomeAnswer n a) s = .next { s with ctl := arrive (.outcomeAnswer n a) s.ctl })
    ∧ (s.ctl.keypad.entry = .evaluating → s.ctl.keypad.answerWait = true →
      exec .answerWaitExpiry s = .next { s with ctl := resultShown [⟨.red, 5⟩] s.ctl })
    ∧ (s.ctl.keypad.entry = .showing →
      (∀ (g : BlinkGroup) (l : List BlinkGroup), s.ctl.keypad.display = g :: l →
        s.ctl.keypad.phase = some .lead ∨ s.ctl.keypad.phase = some .gap →
        exec .displayTimer s = .next { s with ctl := { s.ctl with
          keypad := { s.ctl.keypad with phase := some (.lit g.blinks) } } })
      ∧ (∀ n : Nat, s.ctl.keypad.phase = some (.lit n) → exec .displayTimer s = .next { s with ctl := { s.ctl with
          keypad := { s.ctl.keypad with phase := some (.dark (n - 1)) } } })
      ∧ (∀ n : Nat, s.ctl.keypad.phase = some (.dark (n + 1)) → exec .displayTimer s = .next { s with ctl := { s.ctl with
          keypad := { s.ctl.keypad with phase := some (.lit (n + 1)) } } })
      ∧ (∀ g : BlinkGroup, s.ctl.keypad.phase = some (.dark 0) → s.ctl.keypad.display = [g] →
        exec .displayTimer s = .next { s with ctl := { s.ctl with
          keypad := { s.ctl.keypad with entry := .idle, display := [], phase := none } } })
      ∧ (∀ (g h : BlinkGroup) (l : List BlinkGroup), s.ctl.keypad.phase = some (.dark 0) →
        s.ctl.keypad.display = g :: h :: l → exec .displayTimer s = .next { s with ctl := { s.ctl with
          keypad := { s.ctl.keypad with display := h :: l, phase := some .gap } } })
      ∧ exec .flashTimerExpiry s = .next s)
    ∧ (s.ctl.keypad.entry ≠ .showing →
      exec .flashTimerExpiry s = .next { s with ctl := { s.ctl with
        keypad := { s.ctl.keypad with flash := decide (9 ≤ highestCode s.ctl.account.conditions) } } }
      ∧ exec .displayTimer s = .next { s with ctl := { s.ctl with keypad := { s.ctl.keypad with flash := false } } })

/-! ### The Service Line (R188 to R198) -/

/-- The command code of a service frame taken as a command (R191). -/
def Sys2Proof.Machine.serviceCode : Instr → Option Nat
  | .unknownCommand code _ => some code.toNat
  | .identify _ => some 1
  | .commission _ => some 2
  | .setTime _ => some 3
  | .status _ => some 4
  | .inject _ => some 5
  | .collect _ => some 6
  | .armFault _ => some 7
  | .restart _ => some 8
  | .decommission _ => some 9
  | _ => none

/-- A command can be carried out: the line took its frame from its bytes, so that it is in progress, or none is in progress. -/
def Sys2Proof.Machine.mayBegin (i : Instr) (c : Controller) : Prop := i ∈ c.inTransit ∨ c.service.inProgress = none

/-- The Controller with a frame handled as a command: one that the line took from its bytes leaves the commands in transit,
one that comes whole leaves the line in HUNT. -/
def Sys2Proof.Machine.frameHandled (i : Instr) (c : Controller) : Controller :=
  if c.inTransit.contains i then { c with inTransit := c.inTransit.erase i }
  else { c with service := { c.service with line := .hunt, frame := [] } }

/-- The Controller with a command taken: it is in progress. -/
def Sys2Proof.Machine.begun (i : Instr) (c : Controller) : Controller :=
  let d := frameHandled i c
  { d with service := { d.service with inProgress := serviceCode i } }

/-- The Controller with the final response of the command with code `k` formed. -/
def Sys2Proof.Machine.answered (k : Nat) (status : Status) (body : List Byte) (c : Controller) : Controller :=
  { c with service := { c.service with responses := c.service.responses ++ [⟨k, status, body, true⟩] } }

/-- The Controller with a command taken and its final response formed. -/
def Sys2Proof.Machine.replied (i : Instr) (status : Status) (body : List Byte) (c : Controller) : Controller :=
  answered ((serviceCode i).getD 0) status body (begun i c)

/-- The line: 7Eh leaves HUNT, a discarded frame and a pause return to it, and so does a collected frame whose length byte is
above 200, whose CRC-16 fails, or which is taken. A frame taken while a command is in progress is answered BUSY; else the
command that it spells is in progress at once. An unknown command or a wrong length is BAD-FORM, and a command out of its state
or role WRONG-STATE or NOT-AGENT. A response sent leaves the queue, a final one ends the command, and RESTART's brings a MAIN
START. The codes 01h to 09h are the nine commands, each with the frame's body, and every other code is an unknown command. A
response's bytes are 7Eh, the command code, a length that counts the status, the status 00h to 06h, the body, and the CRC-16 of
all but the 7Eh. That a command which comes as a whole frame is taken where it is carried out and finds the line in HUNT after
it, the length an INJECT must have, and the commands and the MAIN START in transit are the model's choice
(notes/assumptions/22.md and 1.md). -/
def Obligations.ServiceFramesAreJudged : Prop :=
  (∀ s : State, s.ctl.power.mainOn = true →
    (∀ i : Instr, i = .serviceFrameDiscard ∨ i = .serviceInterByteTimeout →
      exec i s = .next { s with ctl := { s.ctl with service := { s.ctl.service with line := .hunt, frame := [] } } })
    ∧ (s.ctl.service.line = .hunt → ∀ b : Byte,
      (b = 0x7E#8 → exec (.huntByte b) s = .next { s with ctl := { s.ctl with
        service := { s.ctl.service with line := .frame, frame := [] } } })
      ∧ (b ≠ 0x7E#8 → exec (.huntByte b) s = .next s))
    ∧ (s.ctl.service.line = .frame → ∀ (b : Byte) (got : List Byte) (n : Nat), got = s.ctl.service.frame ++ [b] →
      n = fieldAt got 1 1 →
      ((got.length < 2 ∨ n ≤ 200 ∧ got.length < n + 4) → exec (.huntByte b) s = .next { s with ctl := { s.ctl with
        service := { s.ctl.service with frame := got } } })
      ∧ (2 ≤ got.length → (200 < n ∨ n + 4 ≤ got.length ∧ crcPasses got = false) →
        exec (.huntByte b) s = .next { s with ctl := { s.ctl with
          service := { s.ctl.service with line := .hunt, frame := [] } } })
      ∧ (2 ≤ got.length → n ≤ 200 → n + 4 ≤ got.length → crcPasses got = true →
        (s.ctl.service.inProgress = none → exec (.huntByte b) s = .next { s with ctl := { s.ctl with
          service := { s.ctl.service with line := .hunt, frame := [], inProgress := some (got.getD 0 0).toNat }
          inTransit := s.ctl.inTransit ++ [commandOf (got.getD 0 0) ((got.drop 2).take n)] } })
        ∧ (s.ctl.service.inProgress.isSome = true → exec (.huntByte b) s = .next { s with ctl := { s.ctl with
          service := { s.ctl.service with
            line := .hunt, frame := []
            responses := s.ctl.service.responses ++ [⟨(got.getD 0 0).toNat, .busy, [], false⟩] } } })))
    ∧ (∀ (i : Instr) (k : Nat), serviceCode i = some k → i ∉ s.ctl.inTransit → s.ctl.service.inProgress.isSome = true →
      exec i s = .next { s with ctl := { s.ctl with service := { s.ctl.service with
        line := .hunt, frame := [], responses := s.ctl.service.responses ++ [⟨k, .busy, [], false⟩] } } })
    ∧ (∀ b : List Byte,
      (∀ code : Byte, mayBegin (.unknownCommand code b) s.ctl → exec (.unknownCommand code b) s =
        .next { s with ctl := replied (.unknownCommand code b) .badForm [] s.ctl })
      ∧ (∀ (i : Instr) (n : Nat), (i = .identify b ∧ n = 0 ∨ i = .commission b ∧ n = 38
          ∨ i = .setTime b ∧ n = 5 ∨ i = .status b ∧ n = 0 ∨ i = .inject b ∧ n = 1 + 16 * fieldAt b 0 1
          ∨ i = .collect b ∧ n = 0 ∨ i = .armFault b ∧ n = 3 ∨ i = .restart b ∧ n = 0 ∨ i = .decommission b ∧ n = 4) →
        b.length ≠ n → mayBegin i s.ctl → exec i s = .next { s with ctl := replied i .badForm [] s.ctl })
      ∧ (s.ctl.params.isSome = true → b.length = 38 → mayBegin (.commission b) s.ctl →
        exec (.commission b) s = .next { s with ctl := replied (.commission b) .wrongState [] s.ctl })
      ∧ (∀ i : Instr, (i = .inject b ∧ b.length = 1 + 16 * fieldAt b 0 1 ∨ i = .collect b ∧ b = []) →
        mayBegin i s.ctl →
        (s.ctl.params = none → exec i s = .next { s with ctl := replied i .wrongState [] s.ctl })
        ∧ ∀ p : Params, s.ctl.params = some p → p.role = .ordinary →
          exec i s = .next { s with ctl := replied i .notAgent [] s.ctl })
      ∧ (s.ctl.params = none → b.length = 4 → mayBegin (.decommission b) s.ctl →
        exec (.decommission b) s = .next { s with ctl := replied (.decommission b) .wrongState [] s.ctl }))
    ∧ ∀ (r : Response) (rest : List Response), s.ctl.service.responses = r :: rest →
      exec .responseSent s = .next { s with ctl := { s.ctl with
        service := { s.ctl.service with
          responses := rest, inProgress := if r.final then none else s.ctl.service.inProgress }
        inTransit := s.ctl.inTransit ++ (if r.final = true ∧ r.code = 8 ∧ r.status = .ok then [.mainStart] else []) } })
  ∧ (∀ (code : Byte) (body : List Byte), body.length ≤ 200 →
    judgeRequest ((requestBytes code.toNat body).drop 1) = .taken code body
      ∧ serviceCode (commandOf code body) = some code.toNat
      ∧ (code = 1#8 → commandOf code body = .identify body) ∧ (code = 2#8 → commandOf code body = .commission body)
      ∧ (code = 3#8 → commandOf code body = .setTime body) ∧ (code = 4#8 → commandOf code body = .status body)
      ∧ (code = 5#8 → commandOf code body = .inject body) ∧ (code = 6#8 → commandOf code body = .collect body)
      ∧ (code = 7#8 → commandOf code body = .armFault body) ∧ (code = 8#8 → commandOf code body = .restart body)
      ∧ (code = 9#8 → commandOf code body = .decommission body)
      ∧ (code.toNat = 0 ∨ 9 < code.toNat → commandOf code body = .unknownCommand code body))
  ∧ ∀ (r : Response) (sent : List Byte),
    sent = [BitVec.ofNat 8 r.code, BitVec.ofNat 8 (r.body.length + 1), (match r.status with
      | .ok => 0#8
      | .badForm => 1#8
      | .badParam => 2#8
      | .wrongState => 3#8
      | .notAgent => 4#8
      | .busy => 5#8
      | .refused => 6#8)] ++ r.body →
    responseBytes r = 0x7E#8 :: sent ++ [BitVec.ofNat 8 ((crc16 sent).toNat / 256), BitVec.ofNat 8 (crc16 sent).toNat]

/-- The fields of STATUS in their order, each with its width in bytes. -/
def Sys2Proof.Machine.statusFields (c : Controller) : List (Nat × Nat) :=
  let entries := c.store.vouchers.filterMap id
  let receipts := c.store.receipts.filterMap id
  let kind : Option Capture → Nat
    | none => 0
    | some k => match k.kind with
      | .single => 1
      | .double => 2
  let address : Option Capture → Nat
    | none => 0
    | some k => k.address
  [(1, match c.account.state with
      | .uncommissioned => 0
      | .locked => 1
      | .lifeline => 2
      | .low => 3
      | .credited => 4
      | .timed => 5
      | .owned => 6
      | .held => 7),
    (1, match c.clock.timeState with
      | .unset => 0
      | .provisional => 1
      | .set => 2),
    (2, c.clock.day), (3, c.clock.second), (3, c.account.live.energy), (4, c.account.live.timeCredit),
    (1, c.account.live.lifeline), (4, c.account.live.lifetime), (2, conditionField c.account.conditions),
    (2, c.account.live.bypass), (1, c.check.store.corrected), (1, c.check.store.uncorrected),
    (1, c.check.account.corrected), (1, c.check.account.uncorrected), (2, c.radio.discards),
    (1, kind c.check.store.capture), (2, address c.check.store.capture), (1, kind c.check.account.capture),
    (2, address c.check.account.capture), (2, c.exchange.tally), (1, entries.length),
    (1, (entries.filter (fun e => e.isLocal)).length), (1, receipts.length),
    (1, (receipts.filter (fun e => e.own)).length), (1, c.store.retired.length), (1, c.account.pendingOwn.length),
    (2, c.store.log.length)]

/-- IDENTIFY returns kit number, role, commissioned mark, time state and 1. STATUS returns its fields in their order, 45 bytes,
and empties both captures; a double error in the account makes it REFUSED. SET-TIME sets an AGENT exactly, an UNSET station to
the later time, a PROVISIONAL one unless it would go back, and no SET one. ARM-FAULT arms a fault in range. RESTART is
answered OK. The condition field has the bit of each condition pending, that of code n being bit n - 1. That the address bytes
of an empty capture are 0 is the model's choice (notes/assumptions/43.md), that a command which comes as a whole frame finds the
line in HUNT too (22.md), and so are the rollover and the time report in transit (notes/assumptions/1.md and 25.md). -/
def Obligations.ServiceInformation : Prop :=
  (∀ (l : List Condition) (x : Condition),
    (conditionField l).testBit (tableCode x - 1) = l.contains x ∧ conditionField l < 8192)
  ∧ ∀ s : State, s.ctl.power.mainOn = true →
    (mayBegin (.identify []) s.ctl → exec (.identify []) s = .next { s with ctl := (replied (.identify []) .ok (bytesOf 4 (ownKit s.ctl)
      ++ [match s.ctl.params with
        | none => 0#8
        | some p => match p.role with
          | .ordinary => 1#8
          | .agent => 2#8]
      ++ [if s.ctl.params.isSome then 1#8 else 0#8]
      ++ [match s.ctl.clock.timeState with
        | .unset => 0#8
        | .provisional => 1#8
        | .set => 2#8] ++ [1#8]) s.ctl) })
    ∧ (mayBegin (.status []) s.ctl → s.ctl.check.bad = [] → ∀ body : List Byte, body = (statusFields s.ctl).flatMap (fun p => bytesOf p.1 p.2) →
      body.length = 45 ∧ exec (.status []) s = .next { s with ctl :=
        { replied (.status []) .ok body s.ctl with check := { s.ctl.check with
          store := { s.ctl.check.store with capture := none }
          account := { s.ctl.check.account with capture := none } } } })
    ∧ (mayBegin (.status []) s.ctl → ∀ (w : BadWord) (a b : Nat), w ∈ s.ctl.check.bad → inAccount w.unit = true → w.flips = [a, b] →
      ∃ t : State, exec (.status []) s = .next t ∧ t.ctl.service = (replied (.status []) .refused [] s.ctl).service)
    ∧ (∀ (b : List Byte) (d n : Nat) (ok : Controller), mayBegin (.setTime b) s.ctl → b.length = 5 → d = fieldAt b 0 2 → n = fieldAt b 2 3 →
      ok = replied (.setTime b) .ok [] s.ctl →
      (86399 < n → exec (.setTime b) s = .next { s with ctl := replied (.setTime b) .badParam [] s.ctl })
      ∧ (n ≤ 86399 →
        (isAgent s.ctl = true → exec (.setTime b) s = .next { s with ctl := timeSetTo d n .set ok })
        ∧ (isAgent s.ctl = false →
          (s.ctl.clock.timeState = .set → exec (.setTime b) s =
            .next { s with ctl := replied (.setTime b) .wrongState [] s.ctl })
          ∧ (s.ctl.clock.timeState = .unset ∨ s.ctl.clock.timeState = .provisional →
            s.ctl.clock.day * 86400 + s.ctl.clock.second ≤ d * 86400 + n →
            exec (.setTime b) s = .next { s with ctl := timeSetTo d n .set ok })
          ∧ (s.ctl.clock.timeState = .unset → d * 86400 + n < s.ctl.clock.day * 86400 + s.ctl.clock.second →
            exec (.setTime b) s = .next { s with ctl := timeSetTo s.ctl.clock.day s.ctl.clock.second .set ok })
          ∧ (s.ctl.clock.timeState = .provisional → d * 86400 + n < s.ctl.clock.day * 86400 + s.ctl.clock.second →
            exec (.setTime b) s = .next { s with ctl := replied (.setTime b) .refused [] s.ctl }))))
    ∧ (∀ (g n k : Byte), mayBegin (.armFault [g, n, k]) s.ctl →
      (1 ≤ g.toNat → g.toNat ≤ 2 → 1 ≤ n.toNat → n.toNat ≤ 2 → k.toNat ≤ 38 →
        exec (.armFault [g, n, k]) s = .next { s with ctl := { replied (.armFault [g, n, k]) .ok [] s.ctl with
          check := { s.ctl.check with armed := some {
            region := if g.toNat = 1 then .store else .account, count := n.toNat, bit := k.toNat } } } })
      ∧ ((g.toNat = 0 ∨ 2 < g.toNat ∨ n.toNat = 0 ∨ 2 < n.toNat ∨ 38 < k.toNat) →
        exec (.armFault [g, n, k]) s = .next { s with ctl := replied (.armFault [g, n, k]) .badParam [] s.ctl }))
    ∧ (mayBegin (.restart []) s.ctl → exec (.restart []) s = .next { s with ctl := replied (.restart []) .ok [] s.ctl })

/-- INJECT at an AGENT hands over its one to eight vouchers one at a time, in body order, and answers their marks. One that
spells no voucher is marked not taken; an own one is delivered; a foreign one already held is marked taken, one retired or
without room is not, and else it is stored as a LOCAL entry of hop 0 in an empty slot, or in place of the entry of the greatest
hop above 0. COLLECT removes the log's first eight receipts and returns them in one part, or in two of at most six; where it has
removed any, the own receipts that wait in the receipt table move to the log, earliest first, while it has room, and their keys
are retired. A count of 0 or above 8 is BAD-PARAM by the model's choice (notes/assumptions/22.md), and so is the mark 00h of the
second of two equal own vouchers in one INJECT where the first is in flight and the list is full of lower serials (33.md). -/
def Obligations.InjectAndCollect : Prop :=
  (∀ (s : State) (p : Params), s.ctl.power.mainOn = true → s.ctl.params = some p → p.role = .agent →
    (∀ b : List Byte, mayBegin (.inject b) s.ctl → b.length = 1 + 16 * fieldAt b 0 1 → (fieldAt b 0 1 = 0 ∨ 8 < fieldAt b 0 1) →
      exec (.inject b) s = .next { s with ctl := replied (.inject b) .badParam [] s.ctl })
    ∧ (∀ (l : List VoucherItem) (b : List Byte) (r : Controller × List Bool), 1 ≤ l.length → l.length ≤ 8 →
      (∀ i : VoucherItem, i ∈ l → i.inBytes = true) → b = bytesOf 1 l.length ++ l.flatMap voucherBytes →
      mayBegin (.inject b) s.ctl → r = injectAll l (begun (.inject b) s.ctl) →
      exec (.inject b) s = .next { s with ctl :=
        (answered 5 .ok (bytesOf 1 l.length ++ r.2.map (fun m => if m then 1#8 else 0#8)) r.1) })
    ∧ ∀ (c : Controller) (m : List (Nat × ReceiptEntry)), mayBegin (.collect []) s.ctl → cleanMemory s.ctl →
      s.ctl.store.receipts.length = 48 → (s.ctl.store.log = [] ∧ m = [] ∨ s.ctl.store.log ≠ [] ∧ ownInOrder s.ctl.store.receipts m) →
      c = begun (.collect []) s.ctl →
      (s.ctl.store.log.length ≤ 6 → exec (.collect []) s = .next { s with ctl :=
        { answered 6 .ok ([1#8, 1#8] ++ bytesOf 1 s.ctl.store.log.length
            ++ s.ctl.store.log.flatMap (fun r => receiptItemBytes (itemOfReceipt r))) c with
          store := (movedToLog m { s.ctl with store := { s.ctl.store with log := [] } }).store } })
      ∧ (6 < s.ctl.store.log.length → exec (.collect []) s = .next { s with ctl := { c with
        store := (movedToLog m { s.ctl with store := { s.ctl.store with log := s.ctl.store.log.drop 8 } }).store
        service := { c.service with responses := s.ctl.service.responses
          ++ [⟨6, .ok, [1#8, 2#8, 6#8]
                ++ (s.ctl.store.log.take 6).flatMap (fun r => receiptItemBytes (itemOfReceipt r)), false⟩,
              ⟨6, .ok, [2#8, 2#8] ++ bytesOf 1 ((s.ctl.store.log.take 8).drop 6).length
                ++ ((s.ctl.store.log.take 8).drop 6).flatMap (fun r => receiptItemBytes (itemOfReceipt r)), true⟩] } } }))
  ∧ (∀ (i : VoucherItem) (l : List VoucherItem) (c : Controller),
    injectAll [] c = (c, [])
      ∧ injectAll (i :: l) c = ((injectAll l (injectOne i c).1).1, (injectOne i c).2 :: (injectAll l (injectOne i c).1).2))
  ∧ ∀ (i : VoucherItem) (c : Controller), cleanMemory c →
    (voucherOfItem { i with hop := 0 } = none → injectOne i c = (c, false))
    ∧ ∀ v : Voucher, voucherOfItem { i with hop := 0 } = some v →
      (v.target = ownKit c → injectOne i c = (deliver v none c, deliveryTaken v c))
      ∧ (v.target ≠ ownKit c →
        ((∃ e : VoucherEntry, some e ∈ c.store.vouchers ∧ voucherKey e.voucher = voucherKey v) → injectOne i c = (c, true))
        ∧ ((∀ e : VoucherEntry, some e ∈ c.store.vouchers → voucherKey e.voucher ≠ voucherKey v) →
          (voucherKey v ∈ c.store.retired → injectOne i c = (c, false))
          ∧ (voucherKey v ∉ c.store.retired →
            ((∀ e : Option VoucherEntry, e ∈ c.store.vouchers → ∃ f : VoucherEntry, e = some f ∧ f.voucher.hop = 0) →
              injectOne i c = (c, false))
            ∧ ∀ (n : Nat) (full : Bool),
              (full = false ∧ emptySlot 0 (voucherView c) = some n
                ∨ full = true ∧ none ∉ c.store.vouchers
                  ∧ ∃ e : VoucherEntry, c.store.vouchers[n]? = some (some e) ∧ 0 < e.voucher.hop
                    ∧ ∀ (m : Nat) (f : VoucherEntry), c.store.vouchers[m]? = some (some f) →
                      f.voucher.hop < e.voucher.hop
                      ∨ f.voucher.hop = e.voucher.hop ∧ (e.arrival < f.arrival ∨ e.arrival = f.arrival ∧ n ≤ m)) →
              injectOne i c = ({ c with
                store := { c.store with
                  vouchers := c.store.vouchers.set n
                    (some { voucher := { v with hop := 0 }, arrival := c.store.arrivals, isLocal := true })
                  arrivals := min 4294967295 (c.store.arrivals + 1) }
                inTransit := c.inTransit ++ (if full then [.conditionReport (.raised .storeFull)] else []) }, true))))

/-- COMMISSION's body spells its parameters field by field, each in its range; the decommissioning code is the tag of the kit's
own number with serial 0, kind 9, amount 0 and residue 0 under its key. COMMISSION with its parameters in range and WRITE-SAFE
high erases the pages and begins the commissioning block; with WRITE-SAFE low it has ended, refused; its end is answered.
DECOMMISSION with the right code stops the station and begins the erasure of the block, or waits for the write in flight; with
another it is refused. The erasure's end leaves the station UNCOMMISSIONED with an erased store. That exchange and keypad are
reset when DECOMMISSION comes into progress, and the order of COMMISSION's steps, and that a scan under way is dropped, are the
model's choice (notes/assumptions/26.md, 13.md and 14.md), the reports on commits known as overtaken are its own (28.md), and so
is the line after a command that comes as a whole frame (22.md). That no bad word outlives the erasure, that it goes on when
WRITE-SAFE falls, and that a flash in progress ends, are its choices (47.md, 49.md and 51.md). -/
def Obligations.CommissionAndDecommission : Prop :=
  (∀ (b : List Byte) (p : Params), b.length = 38 → (readParams b = some p ↔ valuesInRange p
    ∧ p.kit = fieldAt b 0 4 ∧ p.key = (b.drop 4).take 16
    ∧ (fieldAt b 20 1 = 1 ∧ p.role = .ordinary ∨ fieldAt b 20 1 = 2 ∧ p.role = .agent)
    ∧ p.wake = fieldAt b 21 2 ∧ p.listenHold = fieldAt b 23 1 ∧ p.hailPeriod = fieldAt b 24 2 ∧ p.hopLimit = fieldAt b 26 1
    ∧ p.burst = fieldAt b 27 1 ∧ p.allowance = fieldAt b 28 1 ∧ p.cap = fieldAt b 29 1 ∧ p.lowThreshold = fieldAt b 30 2
    ∧ p.fallback = fieldAt b 32 1 ∧ p.relayCutoff = fieldAt b 33 2 ∧ p.receiptLife = fieldAt b 35 1
    ∧ p.reportInterval = fieldAt b 36 1
    ∧ (fieldAt b 37 1 = 1 ∧ p.capture = .first ∨ fieldAt b 37 1 = 2 ∧ p.capture = .last)))
  ∧ (∀ (p : Params) (m : List Byte),
    m = [BitVec.ofNat 8 (p.kit / 16777216), BitVec.ofNat 8 (p.kit / 65536), BitVec.ofNat 8 (p.kit / 256),
      BitVec.ofNat 8 p.kit, 0#8, 0#8, 9#8, 0#8, 0#8, 0#8, 0#8, 0#8] →
    decommissionCode p
      = ((crc16 (p.key.take 8 ++ m)).toNat * 65536 + (crc16 (p.key.drop 8 ++ m)).toNat) % 100000000)
  ∧ ∀ s : State, s.ctl.power.mainOn = true →
    (∀ b : List Byte, mayBegin (.commission b) s.ctl → s.ctl.params = none → b.length = 38 →
      (readParams b = none →
        exec (.commission b) s = .next { s with ctl := replied (.commission b) .badParam [] s.ctl })
      ∧ ∀ (p : Params) (c : Controller), readParams b = some p →
        c = begun (.commission b) s.ctl →
        (s.ctl.power.writeSafe = true → exec (.commission b) s = .next { s with ctl := { c with
          journal := { Journal.started (List.replicate 16 .erased) .torn with
            writeState := .writing, commissioning := some (p, .block .first) } } })
        ∧ (s.ctl.power.writeSafe = false → exec (.commission b) s = .next { s with ctl := { c with
          journal := { s.ctl.journal with commissioning := some (p, .ended false) } } }))
    ∧ (∀ (p : Params) (done : Bool), s.ctl.journal.commissioning = some (p, .ended done) →
      s.ctl.service.inProgress = some 2 → exec .commissionComplete s = .next { s with ctl := { s.ctl with
        journal := { s.ctl.journal with commissioning := none }
        service := { s.ctl.service with
          responses := s.ctl.service.responses ++ [⟨2, if done then .ok else .refused, [], true⟩] } } })
    ∧ (∀ (b : List Byte) (p : Params), mayBegin (.decommission b) s.ctl → s.ctl.params = some p → b.length = 4 →
      (99999999 < fieldAt b 0 4 →
        exec (.decommission b) s = .next { s with ctl := replied (.decommission b) .badParam [] s.ctl })
      ∧ (fieldAt b 0 4 ≤ 99999999 → fieldAt b 0 4 ≠ decommissionCode p →
        exec (.decommission b) s = .next { s with ctl := replied (.decommission b) .refused [] s.ctl })
      ∧ ∀ c : Controller, fieldAt b 0 4 = decommissionCode p →
        c = { begun (.decommission b) s.ctl with
          decommissioning := true
          meter := { s.ctl.meter with mode := .idle, request := false }
          switch := { s.ctl.switch with state := .opened, timer := none, overRun := 0 }
          exchange := Exchange.started none s.ctl.exchange.number 0
          radio := Radio.started false s.ctl.radio.discards
          channel := Channel.empty
          keypad := { Keypad.started s.ctl.keypad.evaluation with known := s.ctl.keypad.known } } →
        (s.ctl.journal.slot.isSome = true → exec (.decommission b) s = .next { s with ctl := { c with
          journal := { s.ctl.journal with
            periodicPending := false, stagedWaiting := false, awaitingSafe := false, reloadOwed := false } } })
        ∧ (s.ctl.journal.slot = none → exec (.decommission b) s = .next { s with ctl := { c with
          journal := { s.ctl.journal with
            writeState := .erasing, periodicPending := false, stagedWaiting := false, awaitingSafe := false
            reloadOwed := false, scan := none, erasureWaits := !s.ctl.power.writeSafe
            block := if s.ctl.power.writeSafe then .erased else s.ctl.journal.block } } }))
    ∧ (s.ctl.journal.writeState = .erasing → s.ctl.journal.erasureWaits = false → s.ctl.service.inProgress = some 9 →
      ∃ t : State, exec .erasureComplete s = .next t ∧ t.pending = s.pending ∧ t.ctl.params = none
        ∧ t.ctl.decommissioning = false ∧ t.ctl.account = { Account.blank with overtaken := s.ctl.inTransit.filter ofStagedCommit }
        ∧ t.ctl.meter.mode = .idle
        ∧ t.ctl.switch.state = .opened ∧ t.ctl.store = Store.emptied [] ∧ t.ctl.exchange.number = s.ctl.exchange.number
        ∧ t.ctl.exchange.tally = 0 ∧ t.ctl.radio = Radio.started false s.ctl.radio.discards
        ∧ t.ctl.channel = Channel.empty ∧ t.ctl.journal = Journal.started (List.replicate 16 .erased) .erased
        ∧ t.ctl.check = { store := RegionCheck.clear, account := RegionCheck.clear, armed := none, bad := [] }
        ∧ t.ctl.clock = s.ctl.clock ∧ t.ctl.power = s.ctl.power
        ∧ t.ctl.service = { s.ctl.service with responses := s.ctl.service.responses ++ [⟨9, .ok, [], true⟩] })

/-! ### The Memory Check Unit (R172 to R179) -/

/-- Whether a STATUS is owed once HELD is raised: it was owed, or HELD is first raised, the day known and the last status day
another. -/
def Sys2Proof.Machine.owedAtHeld (c : Controller) : Bool :=
  c.account.statusOwed || decide (c.account.conditions.contains .held = false ∧ c.clock.timeState ≠ .unset
    ∧ c.account.live.lastStatus ≠ c.clock.day)

/-- An armed fault is planted in the next word written in its region, of an entry or of the account, flips its bit, or its bit
and bit 0, and is armed no longer. A single error found on reading is corrected, counted and captured, with CORRECTED
reported. A double error in the store drops its entry without retiring it, with STORE-FAULT reported, and is not found again,
which is the model's reading (notes/assumptions/10.md): a slot is emptied, a retired key is forgotten, a pending voucher not
yet examined is answered NOT-TAKEN, an asker's entry leaves the queue and, where it is being served, is abandoned, and a
receipt leaves the log, which own receipts then fill. What becomes of a service so abandoned, and of its CARRY, is the model's
reading too (17.md), and when the hailer reads its queue its choice (50.md). One in the account, found as a charge is to be
made, leaves the balance, sets HELD, raises its condition, owing a STATUS where it is first raised, the day is known and the
last status day another, discards the staged record and begins the reload. An application in flight is overtaken: its voucher
goes to the list with its in-commit mark, answered PENDING, or is given up, answered NOT-TAKEN, where the list refuses it; the
marks on its reports, the entry of an equal key that takes the mark, and the pass that ends with it under HELD are the model's
own (28.md, 34.md, 35.md). While HELD is set it is counted and captured, and on an UNCOMMISSIONED station the word is written
afresh too. The staged record has words of its own in the account's region: a fault is planted in them when it is formed, or,
by the model's choice (10.md), when a change touches the staged record alone; an error in them is found as one in the live
record; and they leave the region with it, at an application abandoned or overtaken. -/
def Obligations.CheckedMemory : Prop :=
  (∀ u : EntryUnit, inAccount u = true ↔ u = .account ∨ u = .staged)
  ∧ (∀ (c : Controller) (a : ArmedFault) (u : EntryUnit), c.check.bad = [] → c.check.armed = some a →
    storeWritten u c = (if a.region = .store then { c with
      check := { c.check with
        armed := none
        bad := [{
          unit := u, flips := if a.count = 2 ∧ a.bit ≠ 0 then [a.bit, 0] else [a.bit], address := drawn 0 65535 c }] }
      draws := c.draws + 1 } else c))
  ∧ (∀ (c : Controller) (w : BadWord) (sel : EntryUnit → Bool) (b : Nat), c.check.bad = [w] → sel w.unit = true →
    w.flips = [b] → readUnits sel c = { c with
      check := { c.check with bad := [], store := regionAfter (captureMode c) .single w.address c.check.store }
      inTransit := c.inTransit ++ [.conditionReport (.raised .corrected)] })
  ∧ (∀ (c : Controller) (w : BadWord) (sel : EntryUnit → Bool) (b n : Nat), c.check.bad = [w] → sel w.unit = true →
    w.flips = [b, 0] → w.unit = .voucherSlot n → readUnits sel c = { c with
      check := { c.check with bad := [], store := regionAfter (captureMode c) .double w.address c.check.store }
      store := { c.store with vouchers := c.store.vouchers.set n none }
      inTransit := c.inTransit ++ [.conditionReport (.raised .storeFault)] })
  ∧ (∀ (c : Controller) (w : BadWord) (sel : EntryUnit → Bool) (b : Nat) (k : ItemKey), c.check.bad = [w] →
    sel w.unit = true → w.flips = [b, 0] → w.unit = .retiredKey k → readUnits sel c = { c with
      check := { c.check with bad := [], store := regionAfter (captureMode c) .double w.address c.check.store }
      store := { c.store with retired := c.store.retired.erase k }
      inTransit := c.inTransit ++ [.conditionReport (.raised .storeFault)] })
  ∧ (∀ (c : Controller) (a : ArmedFault), c.check.bad = [] → c.check.armed = some a →
    accountWritten c = (if a.region = .account then { c with
      check := { c.check with
        armed := none
        bad := [{
          unit := .account, flips := if a.count = 2 ∧ a.bit ≠ 0 then [a.bit, 0] else [a.bit], address := drawn 0 65535 c }] }
      draws := c.draws + 1 } else c))
  ∧ (∀ (c : Controller) (a : ArmedFault) (d : Controller), c.check.bad = [] → c.check.armed = some a → a.region = .account →
    d = { c with
      check := { c.check with
        armed := none
        bad := [{
          unit := .staged, flips := if a.count = 2 ∧ a.bit ≠ 0 then [a.bit, 0] else [a.bit], address := drawn 0 65535 c }] }
      draws := c.draws + 1 } →
    stagedFormed c = d
    ∧ ∀ f : Record → Record, f c.account.live = c.account.live → c.account.staged.map f ≠ c.account.staged →
      writeBoth f c = { d with account := { c.account with staged := c.account.staged.map f } })
  ∧ (∀ (s : State) (w : BadWord) (f : Flight) (e : PendingEntry), s.ctl.power.mainOn = true →
    s.ctl.account.live.commissioned = true → s.ctl.decommissioning = false → s.ctl.account.live.held = false →
    s.ctl.check.bad = [w] → w.unit = .staged → s.ctl.account.flight = some f →
    s.ctl.account.overtaken.contains .commitInhibitedReport = false →
    entryWith f.voucher.serial s.ctl.account.pendingOwn = some e →
    exec .commitInhibitedReport s = .next { s with ctl := runDue (endExamination { s.ctl with
      account := { s.ctl.account with staged := none, flight := none }
      check := { s.ctl.check with bad := [] }
      inTransit := s.ctl.inTransit.erase .commitInhibitedReport ++ answerSent f.answerTo .pending }) })
  ∧ (∀ (c : Controller) (w : BadWord) (b : Nat), c.check.bad = [w] → inAccount w.unit = true → w.flips = [b] →
    accountReads c = true ∧ readAccount c = { c with
      check := { c.check with bad := [], account := regionAfter (captureMode c) .single w.address c.check.account }
      inTransit := c.inTransit ++ [.conditionReport (.raised .corrected)] })
  ∧ (∀ (c : Controller) (w : BadWord) (b : Nat), c.check.bad = [w] → inAccount w.unit = true → w.flips = [b, 0] →
    accountReads c = false
    ∧ (c.account.live.commissioned = true → c.account.live.held = true → readAccount c = { c with
      check := { c.check with account := regionAfter (captureMode c) .double w.address c.check.account } })
    ∧ (c.account.live.commissioned = false → c.check.armed = none → readAccount c = { c with
      check := { c.check with bad := [], account := regionAfter (captureMode c) .double w.address c.check.account } }))
  ∧ (∀ (c : Controller) (w : BadWord) (sel : EntryUnit → Bool) (b n : Nat), c.check.bad = [w] → sel w.unit = true →
    w.flips = [b, 0] → w.unit = .receiptSlot n → readUnits sel c = { c with
      check := { c.check with bad := [], store := regionAfter (captureMode c) .double w.address c.check.store }
      store := { c.store with receipts := c.store.receipts.set n none }
      inTransit := c.inTransit ++ [.conditionReport (.raised .storeFault)] })
  ∧ (∀ (c : Controller) (w : BadWord) (sel : EntryUnit → Bool) (b n : Nat), c.check.bad = [w] → sel w.unit = true →
    w.flips = [b, 0] → w.unit = .pendingOwn n → readUnits sel c = { c with
      check := { c.check with bad := [], store := regionAfter (captureMode c) .double w.address c.check.store }
      account := { c.account with pendingOwn := c.account.pendingOwn.filter (fun e => decide (e.voucher.serial ≠ n)) }
      inTransit := c.inTransit ++ (match entryWith n c.account.pendingOwn with
        | none => []
        | some e => if e.unexamined then answerSent e.answerTo .notTaken else []) ++ [.conditionReport (.raised .storeFault)] })
  ∧ (∀ (c : Controller) (w : BadWord) (b n : Nat) (d : Controller), c.check.bad = [w] → w.flips = [b, 0] →
    w.unit = .askEntry n →
    d = { c with
      check := { c.check with bad := [], store := regionAfter (captureMode c) .double w.address c.check.store }
      exchange := { c.exchange with askQueue := c.exchange.askQueue.filter (fun e => decide (e.asker ≠ n)) }
      inTransit := c.inTransit ++ [.conditionReport (.raised .storeFault)] } →
    ((∀ sv : Service, c.exchange.service = some sv → sv.asker ≠ n) → readQueue c = d)
    ∧ ∀ (sv : Service) (e : Controller), c.exchange.service = some sv → sv.asker = n →
      e = { d with exchange := { d.exchange with
        service := none, tookWait := none, tally := min 65535 (c.exchange.tally + (sv.keyCount - sv.acked)) } } →
      ((∃ (t : TxSlot) (x : WaitingCarry), c.channel.carry = some t ∧ t.frame = .waiting x ∧ x.asker = n) → readQueue c = e)
      ∧ ((∀ (t : TxSlot) (x : WaitingCarry), c.channel.carry = some t → t.frame = .waiting x → x.asker ≠ n) →
        readQueue c = servedOn 0 e))
  ∧ (∀ (c : Controller) (w : BadWord) (b : Nat) (k : ItemKey) (d : Controller), c.check.bad = [w] → w.flips = [b, 0] →
    w.unit = .logEntry k → c.check.armed = none →
    d = { c with
      check := { c.check with bad := [], store := regionAfter (captureMode c) .double w.address c.check.store }
      store := { c.store with log := c.store.log.filter (fun r => decide (receiptKey r ≠ k)) }
      inTransit := c.inTransit ++ [.conditionReport (.raised .storeFault)] } →
    (∀ r : Receipt, r ∈ c.store.log → receiptKey r ≠ k) ∧ readLog c = d
      ∨ (∃ r : Receipt, r ∈ c.store.log ∧ receiptKey r = k)
        ∧ (isAgent c = false → readLog c = d)
        ∧ ∀ m : List (Nat × ReceiptEntry), isAgent c = true → c.store.receipts.length = 48 → ownInOrder c.store.receipts m →
          readLog c = movedToLog m d)
  ∧ (∀ (s : State) (w : BadWord) (b : Nat), s.ctl.power.mainOn = true → s.ctl.account.live.commissioned = true →
    s.ctl.decommissioning = false → s.ctl.account.live.held = false → s.ctl.check.bad = [w] → s.ctl.check.armed = none →
    inAccount w.unit = true → w.flips = [b, 0] → s.ctl.account.flight = none →
    s.ctl.journal.slot = none → s.ctl.journal.writeState = .idle → s.ctl.account.state ≠ .held →
    exec .chargeReport s = .next { s with ctl := { arrive .chargeReport s.ctl with
      account := { s.ctl.account with
        live := { s.ctl.account.live with held := true }, staged := none, state := .held
        conditions := setWith .held s.ctl.account.conditions, statusOwed := owedAtHeld s.ctl }
      meter := { s.ctl.meter with known := .held }
      keypad := { s.ctl.keypad with known := .held }
      check := { s.ctl.check with
        bad := if w.unit = .staged then [] else [w]
        account := regionAfter (captureMode s.ctl) .double w.address s.ctl.check.account }
      journal := { s.ctl.journal with
        periodicPending := false, stagedWaiting := false, awaitingSafe := false, writeState := .scanning
        scan := some .reload }
      inTransit := s.ctl.inTransit.erase .chargeReport ++ [.accountStateToSwitch .held] } })
  ∧ ∀ (s : State) (w : BadWord) (b : Nat) (f : Flight) (l : List PendingEntry) (a : Answer) (j : Journal),
    s.ctl.power.mainOn = true → s.ctl.account.live.commissioned = true → s.ctl.decommissioning = false →
    s.ctl.account.live.held = false → s.ctl.check.bad = [w] → s.ctl.check.armed = none → inAccount w.unit = true →
    w.flips = [b, 0] → s.ctl.account.flight = some f → s.ctl.account.state ≠ .held →
    s.ctl.account.pendingOwn.Pairwise (fun x y => x.voucher.serial < y.voucher.serial) →
    (∀ e : PendingEntry, e ∈ s.ctl.account.pendingOwn → e.unexamined = false) →
    (s.ctl.account.pass = none ∨ ∃ done : List Nat, s.ctl.account.pass = some done
      ∧ (∃ e : PendingEntry, entryWith f.voucher.serial s.ctl.account.pendingOwn = some e)
      ∧ ∀ e : PendingEntry, e ∈ s.ctl.account.pendingOwn → e.owed = none → e.voucher.serial ∈ done) →
    ((∃ e : PendingEntry, entryWith f.voucher.serial s.ctl.account.pendingOwn = some e) ∧ a = .pending
        ∧ l = s.ctl.account.pendingOwn.map (fun x =>
            if x.voucher.serial = f.voucher.serial then { x with inCommit := true } else x)
      ∨ entryWith f.voucher.serial s.ctl.account.pendingOwn = none
        ∧ (s.ctl.account.pendingOwn.length < 4 ∧ a = .pending
            ∧ l = insertEntry ⟨f.voucher, false, true, false, none, none⟩ s.ctl.account.pendingOwn
          ∨ ∃ e : PendingEntry, 4 ≤ s.ctl.account.pendingOwn.length ∧ s.ctl.account.pendingOwn.getLast? = some e
            ∧ (f.voucher.serial < e.voucher.serial ∧ a = .pending
                ∧ l = insertEntry ⟨f.voucher, false, true, false, none, none⟩ s.ctl.account.pendingOwn.dropLast
              ∨ e.voucher.serial ≤ f.voucher.serial ∧ a = .notTaken ∧ l = s.ctl.account.pendingOwn))) →
    (s.ctl.journal.slot = none ∧ s.ctl.journal.writeState = .idle
        ∧ j = { s.ctl.journal with
          periodicPending := false, stagedWaiting := false, awaitingSafe := false, writeState := .scanning
          scan := some .reload }
      ∨ ∃ m : Commit, s.ctl.journal.slot = some m
        ∧ j = { s.ctl.journal with
          periodicPending := false, stagedWaiting := false, awaitingSafe := false, reloadOwed := true
          slot := some { m with overtaken := decide (m.kind = .staged) } }) →
    exec .chargeReport s = .next { s with ctl := { arrive .chargeReport s.ctl with
      account := { s.ctl.account with
        live := { s.ctl.account.live with held := true }, staged := none, flight := none, pass := none, state := .held
        pendingOwn := l, conditions := setWith .held s.ctl.account.conditions, statusOwed := owedAtHeld s.ctl
        overtaken := (s.ctl.inTransit.erase .chargeReport).filter ofStagedCommit }
      meter := { s.ctl.meter with known := .held }
      keypad := { s.ctl.keypad with known := .held }
      check := { s.ctl.check with
        bad := if w.unit = .staged then [] else [w]
        account := regionAfter (captureMode s.ctl) .double w.address s.ctl.check.account }
      journal := j
      inTransit := s.ctl.inTransit.erase .chargeReport ++ (match f.answerTo with
        | none => []
        | some n => [.outcomeAnswer n a]) ++ [.accountStateToSwitch .held] } }

/-! ### What every step keeps -/

/-- Every step keeps the switch safe: closed only under an account state that allows it, in a trip hold only under LIFELINE,
with the hold's timer present exactly then. -/
def Obligations.SwitchStaysSafe : Prop :=
  ∀ s t : State, SwitchSafe s.ctl.switch → step s = .next t → SwitchSafe t.ctl.switch

/-- A serial once applied or skipped stays so: no command but the starts, the loss of main power, the verification of the
commissioning block, the end of an erasure and the two scans unmarks a serial of the live window, and the staged window
settles all that the live one settles. -/
def Obligations.SettledSerialsStaySettled : Prop :=
  ∀ (i : Instr) (s t : State),
    (replacesRecord i = false
      ∨ (∃ readTrue : Bool, i = .verifyDone readTrue) ∧ ∀ p a, s.ctl.journal.commissioning ≠ some (p, .block a)) →
    WindowSafe s.ctl.account → exec i s = .next t →
    WindowSafe t.ctl.account ∧ ∀ n : Nat, s.ctl.account.live.settled n → t.ctl.account.live.settled n

/-- Every step keeps the parameters in their commissioning ranges, the Meter's remainders below the quantum, the clock at a
time of the epoch, and the receive state true to what is being received and sent. -/
def Obligations.RegistersStayInRange : Prop :=
  ∀ s t : State, ParamsSafe s.ctl ∧ MeterSafe s.ctl.meter ∧ ClockSafe s.ctl.clock ∧ RadioSafe s.ctl.radio →
    step s = .next t → ParamsSafe t.ctl ∧ MeterSafe t.ctl.meter ∧ ClockSafe t.ctl.clock ∧ RadioSafe t.ctl.radio

/-- Every step keeps the amounts, the days, the counts, the receipt serial counter and the reserve of both account records
within their ranges, the clock being safe and the command a well-formed one. -/
def Obligations.AccountStaysInRange : Prop :=
  ∀ s t : State, AccountSafe s.ctl → ClockSafe s.ctl.clock → (∀ i, nextCommand s = some i → i.wellFormed = true) →
    step s = .next t → AccountSafe t.ctl

/-- Every step keeps the collections within their sizes, with no key retired twice. -/
def Obligations.CollectionsStayInRange : Prop :=
  ∀ s t : State, StoreSafe s.ctl → step s = .next t → StoreSafe t.ctl

/-- Every step keeps the keys: each voucher in the table is foreign, within the hop limit and not retired, and stands in one
slot alone; so does each foreign receipt, of which an AGENT station's table holds none; own receipts are of this kit. -/
def Obligations.KeysAreHeldOnce : Prop :=
  ∀ s t : State, KeysSafe s.ctl → step s = .next t → KeysSafe t.ctl

end Statements
end

