-- ==== Sys2Proof/Laws/FramesAccount.lean ====
section
/-! SUPPORT. What each operation of the shared operations, the Journal, the Relay Store and the Account Unit
leaves alone: one lemma for each, the fields of the Controller that stand as they were. -/

namespace Sys2Proof.Machine

@[simp] theorem journalHeld_frame (j : Journal) :
    (journalHeld j).pages = j.pages ∧ (journalHeld j).block = j.block ∧ (journalHeld j).commissioning = j.commissioning := by
  unfold journalHeld; dsimp only; repeat' split
  all_goals simp

@[simp] theorem writePage_frame (m : Commit) (j : Journal) :
    (writePage m j).block = j.block ∧ (writePage m j).commissioning = j.commissioning ∧
    (writePage m j).newestPage = j.newestPage ∧ (writePage m j).newestSeq = j.newestSeq := ⟨rfl, rfl, rfl, rfl⟩

/-! ### Ops.lean -/

@[simp] theorem emit_frame (i : Instr) (c : Controller) :
    (emit i c).power = c.power ∧ (emit i c).params = c.params ∧ (emit i c).decommissioning = c.decommissioning
      ∧ (emit i c).account = c.account ∧ (emit i c).meter = c.meter ∧ (emit i c).switch = c.switch
      ∧ (emit i c).clock = c.clock ∧ (emit i c).store = c.store ∧ (emit i c).exchange = c.exchange
      ∧ (emit i c).radio = c.radio ∧ (emit i c).channel = c.channel ∧ (emit i c).journal = c.journal
      ∧ (emit i c).check = c.check ∧ (emit i c).keypad = c.keypad ∧ (emit i c).service = c.service
      ∧ (emit i c).draws = c.draws := by
  exact ⟨rfl, rfl, rfl, rfl, rfl, rfl, rfl, rfl, rfl, rfl, rfl, rfl, rfl, rfl, rfl, rfl⟩

@[simp] theorem arrive_frame (i : Instr) (c : Controller) :
    (arrive i c).power = c.power ∧ (arrive i c).params = c.params ∧ (arrive i c).decommissioning = c.decommissioning
      ∧ (arrive i c).account = c.account ∧ (arrive i c).meter = c.meter ∧ (arrive i c).switch = c.switch
      ∧ (arrive i c).clock = c.clock ∧ (arrive i c).store = c.store ∧ (arrive i c).exchange = c.exchange
      ∧ (arrive i c).radio = c.radio ∧ (arrive i c).channel = c.channel ∧ (arrive i c).journal = c.journal
      ∧ (arrive i c).check = c.check ∧ (arrive i c).keypad = c.keypad ∧ (arrive i c).service = c.service
      ∧ (arrive i c).draws = c.draws := by
  exact ⟨rfl, rfl, rfl, rfl, rfl, rfl, rfl, rfl, rfl, rfl, rfl, rfl, rfl, rfl, rfl, rfl⟩

@[simp] theorem report_frame (x : Condition) (c : Controller) :
    (report x c).power = c.power ∧ (report x c).params = c.params ∧ (report x c).decommissioning = c.decommissioning
      ∧ (report x c).account = c.account ∧ (report x c).meter = c.meter ∧ (report x c).switch = c.switch
      ∧ (report x c).clock = c.clock ∧ (report x c).store = c.store ∧ (report x c).exchange = c.exchange
      ∧ (report x c).radio = c.radio ∧ (report x c).channel = c.channel ∧ (report x c).journal = c.journal
      ∧ (report x c).check = c.check ∧ (report x c).keypad = c.keypad ∧ (report x c).service = c.service
      ∧ (report x c).draws = c.draws := by
  exact ⟨rfl, rfl, rfl, rfl, rfl, rfl, rfl, rfl, rfl, rfl, rfl, rfl, rfl, rfl, rfl, rfl⟩

@[simp] theorem answerWith_frame (who : Option Nat) (a : Answer) (c : Controller) :
    (answerWith who a c).power = c.power ∧ (answerWith who a c).params = c.params
      ∧ (answerWith who a c).decommissioning = c.decommissioning ∧ (answerWith who a c).account = c.account
      ∧ (answerWith who a c).meter = c.meter ∧ (answerWith who a c).switch = c.switch
      ∧ (answerWith who a c).clock = c.clock ∧ (answerWith who a c).store = c.store
      ∧ (answerWith who a c).exchange = c.exchange ∧ (answerWith who a c).radio = c.radio
      ∧ (answerWith who a c).channel = c.channel ∧ (answerWith who a c).journal = c.journal
      ∧ (answerWith who a c).check = c.check ∧ (answerWith who a c).keypad = c.keypad
      ∧ (answerWith who a c).service = c.service ∧ (answerWith who a c).draws = c.draws := by
  unfold answerWith; repeat' split
  all_goals simp

@[simp] theorem afterDraw_frame (c : Controller) :
    (afterDraw c).power = c.power ∧ (afterDraw c).params = c.params ∧ (afterDraw c).decommissioning = c.decommissioning
      ∧ (afterDraw c).account = c.account ∧ (afterDraw c).meter = c.meter ∧ (afterDraw c).switch = c.switch
      ∧ (afterDraw c).clock = c.clock ∧ (afterDraw c).store = c.store ∧ (afterDraw c).exchange = c.exchange
      ∧ (afterDraw c).radio = c.radio ∧ (afterDraw c).channel = c.channel ∧ (afterDraw c).journal = c.journal
      ∧ (afterDraw c).check = c.check ∧ (afterDraw c).keypad = c.keypad ∧ (afterDraw c).service = c.service
      ∧ (afterDraw c).inTransit = c.inTransit := by
  exact ⟨rfl, rfl, rfl, rfl, rfl, rfl, rfl, rfl, rfl, rfl, rfl, rfl, rfl, rfl, rfl, rfl⟩

@[simp] theorem noteError_frame (g : Region) (k : ErrorKind) (n : Nat) (c : Controller) :
    (noteError g k n c).power = c.power ∧ (noteError g k n c).params = c.params
      ∧ (noteError g k n c).decommissioning = c.decommissioning ∧ (noteError g k n c).account = c.account
      ∧ (noteError g k n c).meter = c.meter ∧ (noteError g k n c).switch = c.switch ∧ (noteError g k n c).clock = c.clock
      ∧ (noteError g k n c).store = c.store ∧ (noteError g k n c).exchange = c.exchange
      ∧ (noteError g k n c).radio = c.radio ∧ (noteError g k n c).channel = c.channel
      ∧ (noteError g k n c).journal = c.journal ∧ (noteError g k n c).keypad = c.keypad
      ∧ (noteError g k n c).service = c.service ∧ (noteError g k n c).inTransit = c.inTransit
      ∧ (noteError g k n c).draws = c.draws := by
  unfold noteError; dsimp only; repeat' split
  all_goals simp

@[simp] theorem plantFault_frame (g : Region) (u : EntryUnit) (c : Controller) :
    (plantFault g u c).power = c.power ∧ (plantFault g u c).params = c.params
      ∧ (plantFault g u c).decommissioning = c.decommissioning ∧ (plantFault g u c).account = c.account
      ∧ (plantFault g u c).meter = c.meter ∧ (plantFault g u c).switch = c.switch ∧ (plantFault g u c).clock = c.clock
      ∧ (plantFault g u c).store = c.store ∧ (plantFault g u c).exchange = c.exchange ∧ (plantFault g u c).radio = c.radio
      ∧ (plantFault g u c).channel = c.channel ∧ (plantFault g u c).journal = c.journal
      ∧ (plantFault g u c).keypad = c.keypad ∧ (plantFault g u c).service = c.service
      ∧ (plantFault g u c).inTransit = c.inTransit := by
  unfold plantFault; dsimp only; repeat' split
  all_goals simp

@[simp] theorem clearWords_frame (u : EntryUnit) (c : Controller) :
    (clearWords u c).power = c.power ∧ (clearWords u c).params = c.params
      ∧ (clearWords u c).decommissioning = c.decommissioning ∧ (clearWords u c).account = c.account
      ∧ (clearWords u c).meter = c.meter ∧ (clearWords u c).switch = c.switch ∧ (clearWords u c).clock = c.clock
      ∧ (clearWords u c).store = c.store ∧ (clearWords u c).exchange = c.exchange ∧ (clearWords u c).radio = c.radio
      ∧ (clearWords u c).channel = c.channel ∧ (clearWords u c).journal = c.journal ∧ (clearWords u c).keypad = c.keypad
      ∧ (clearWords u c).service = c.service ∧ (clearWords u c).inTransit = c.inTransit ∧ (clearWords u c).draws = c.draws := by
  exact ⟨rfl, rfl, rfl, rfl, rfl, rfl, rfl, rfl, rfl, rfl, rfl, rfl, rfl, rfl, rfl, rfl⟩

@[simp] theorem clearAccount_frame (c : Controller) :
    (clearAccount c).power = c.power ∧ (clearAccount c).params = c.params
      ∧ (clearAccount c).decommissioning = c.decommissioning ∧ (clearAccount c).account = c.account
      ∧ (clearAccount c).meter = c.meter ∧ (clearAccount c).switch = c.switch ∧ (clearAccount c).clock = c.clock
      ∧ (clearAccount c).store = c.store ∧ (clearAccount c).exchange = c.exchange ∧ (clearAccount c).radio = c.radio
      ∧ (clearAccount c).channel = c.channel ∧ (clearAccount c).journal = c.journal
      ∧ (clearAccount c).keypad = c.keypad ∧ (clearAccount c).service = c.service
      ∧ (clearAccount c).inTransit = c.inTransit ∧ (clearAccount c).draws = c.draws := by
  exact ⟨rfl, rfl, rfl, rfl, rfl, rfl, rfl, rfl, rfl, rfl, rfl, rfl, rfl, rfl, rfl, rfl⟩

@[simp] theorem withoutStaged_frame (c : Controller) :
    (withoutStaged c).power = c.power ∧ (withoutStaged c).params = c.params
      ∧ (withoutStaged c).decommissioning = c.decommissioning ∧ (withoutStaged c).account.live = c.account.live
      ∧ (withoutStaged c).account.flight = c.account.flight ∧ (withoutStaged c).account.state = c.account.state
      ∧ (withoutStaged c).account.pendingOwn = c.account.pendingOwn
      ∧ (withoutStaged c).account.conditions = c.account.conditions
      ∧ (withoutStaged c).account.metered = c.account.metered
      ∧ (withoutStaged c).account.statusOwed = c.account.statusOwed ∧ (withoutStaged c).account.pass = c.account.pass
      ∧ (withoutStaged c).account.passDue = c.account.passDue
      ∧ (withoutStaged c).account.overtaken = c.account.overtaken ∧ (withoutStaged c).meter = c.meter
      ∧ (withoutStaged c).switch = c.switch ∧ (withoutStaged c).clock = c.clock ∧ (withoutStaged c).store = c.store
      ∧ (withoutStaged c).exchange = c.exchange ∧ (withoutStaged c).radio = c.radio
      ∧ (withoutStaged c).channel = c.channel ∧ (withoutStaged c).journal = c.journal
      ∧ (withoutStaged c).keypad = c.keypad ∧ (withoutStaged c).service = c.service
      ∧ (withoutStaged c).inTransit = c.inTransit ∧ (withoutStaged c).draws = c.draws
      ∧ (withoutStaged c).account.staged = none := by
  exact ⟨rfl, rfl, rfl, rfl, rfl, rfl, rfl, rfl, rfl, rfl, rfl, rfl, rfl, rfl, rfl, rfl, rfl, rfl, rfl, rfl, rfl,
    rfl, rfl, rfl, rfl, rfl⟩

@[simp] theorem storeWritten_frame (u : EntryUnit) (c : Controller) :
    (storeWritten u c).power = c.power ∧ (storeWritten u c).params = c.params
      ∧ (storeWritten u c).decommissioning = c.decommissioning ∧ (storeWritten u c).account = c.account
      ∧ (storeWritten u c).meter = c.meter ∧ (storeWritten u c).switch = c.switch ∧ (storeWritten u c).clock = c.clock
      ∧ (storeWritten u c).store = c.store ∧ (storeWritten u c).exchange = c.exchange ∧ (storeWritten u c).radio = c.radio
      ∧ (storeWritten u c).channel = c.channel ∧ (storeWritten u c).journal = c.journal
      ∧ (storeWritten u c).keypad = c.keypad ∧ (storeWritten u c).service = c.service
      ∧ (storeWritten u c).inTransit = c.inTransit := by
  simp [storeWritten]

@[simp] theorem accountWritten_frame (c : Controller) :
    (accountWritten c).power = c.power ∧ (accountWritten c).params = c.params
      ∧ (accountWritten c).decommissioning = c.decommissioning ∧ (accountWritten c).account = c.account
      ∧ (accountWritten c).meter = c.meter ∧ (accountWritten c).switch = c.switch ∧ (accountWritten c).clock = c.clock
      ∧ (accountWritten c).store = c.store ∧ (accountWritten c).exchange = c.exchange ∧ (accountWritten c).radio = c.radio
      ∧ (accountWritten c).channel = c.channel ∧ (accountWritten c).journal = c.journal
      ∧ (accountWritten c).keypad = c.keypad ∧ (accountWritten c).service = c.service
      ∧ (accountWritten c).inTransit = c.inTransit := by
  simp [accountWritten]

@[simp] theorem stagedFormed_frame (c : Controller) :
    (stagedFormed c).power = c.power ∧ (stagedFormed c).params = c.params
      ∧ (stagedFormed c).decommissioning = c.decommissioning ∧ (stagedFormed c).account = c.account
      ∧ (stagedFormed c).meter = c.meter ∧ (stagedFormed c).switch = c.switch ∧ (stagedFormed c).clock = c.clock
      ∧ (stagedFormed c).store = c.store ∧ (stagedFormed c).exchange = c.exchange ∧ (stagedFormed c).radio = c.radio
      ∧ (stagedFormed c).channel = c.channel ∧ (stagedFormed c).journal = c.journal
      ∧ (stagedFormed c).keypad = c.keypad ∧ (stagedFormed c).service = c.service
      ∧ (stagedFormed c).inTransit = c.inTransit := by
  simp [stagedFormed]

@[simp] theorem accountRewritten_frame (c : Controller) :
    (accountRewritten c).power = c.power ∧ (accountRewritten c).params = c.params
      ∧ (accountRewritten c).decommissioning = c.decommissioning ∧ (accountRewritten c).account = c.account
      ∧ (accountRewritten c).meter = c.meter ∧ (accountRewritten c).switch = c.switch
      ∧ (accountRewritten c).clock = c.clock ∧ (accountRewritten c).store = c.store
      ∧ (accountRewritten c).exchange = c.exchange ∧ (accountRewritten c).radio = c.radio
      ∧ (accountRewritten c).channel = c.channel ∧ (accountRewritten c).journal = c.journal
      ∧ (accountRewritten c).keypad = c.keypad ∧ (accountRewritten c).service = c.service
      ∧ (accountRewritten c).inTransit = c.inTransit := by
  simp [accountRewritten]

@[simp] theorem correctWord_frame (g : Region) (w : BadWord) (c : Controller) :
    (correctWord g w c).power = c.power ∧ (correctWord g w c).params = c.params
      ∧ (correctWord g w c).decommissioning = c.decommissioning ∧ (correctWord g w c).account = c.account
      ∧ (correctWord g w c).meter = c.meter ∧ (correctWord g w c).switch = c.switch ∧ (correctWord g w c).clock = c.clock
      ∧ (correctWord g w c).store = c.store ∧ (correctWord g w c).exchange = c.exchange
      ∧ (correctWord g w c).radio = c.radio ∧ (correctWord g w c).channel = c.channel
      ∧ (correctWord g w c).journal = c.journal ∧ (correctWord g w c).keypad = c.keypad
      ∧ (correctWord g w c).service = c.service ∧ (correctWord g w c).draws = c.draws := by
  simp [correctWord]

@[simp] theorem writeLive_frame (f : Record → Record) (c : Controller) :
    (writeLive f c).power = c.power ∧ (writeLive f c).params = c.params
      ∧ (writeLive f c).decommissioning = c.decommissioning ∧ (writeLive f c).account.staged = c.account.staged
      ∧ (writeLive f c).account.flight = c.account.flight ∧ (writeLive f c).account.state = c.account.state
      ∧ (writeLive f c).account.pendingOwn = c.account.pendingOwn
      ∧ (writeLive f c).account.conditions = c.account.conditions ∧ (writeLive f c).account.metered = c.account.metered
      ∧ (writeLive f c).meter = c.meter ∧ (writeLive f c).switch = c.switch ∧ (writeLive f c).clock = c.clock
      ∧ (writeLive f c).store = c.store ∧ (writeLive f c).exchange = c.exchange ∧ (writeLive f c).radio = c.radio
      ∧ (writeLive f c).channel = c.channel ∧ (writeLive f c).journal = c.journal ∧ (writeLive f c).keypad = c.keypad
      ∧ (writeLive f c).service = c.service ∧ (writeLive f c).inTransit = c.inTransit := by
  unfold writeLive; split
  all_goals simp

@[simp] theorem writeBoth_frame (f : Record → Record) (c : Controller) :
    (writeBoth f c).power = c.power ∧ (writeBoth f c).params = c.params
      ∧ (writeBoth f c).decommissioning = c.decommissioning ∧ (writeBoth f c).account.flight = c.account.flight
      ∧ (writeBoth f c).account.state = c.account.state ∧ (writeBoth f c).account.pendingOwn = c.account.pendingOwn
      ∧ (writeBoth f c).account.conditions = c.account.conditions ∧ (writeBoth f c).account.metered = c.account.metered
      ∧ (writeBoth f c).meter = c.meter ∧ (writeBoth f c).switch = c.switch ∧ (writeBoth f c).clock = c.clock
      ∧ (writeBoth f c).store = c.store ∧ (writeBoth f c).exchange = c.exchange ∧ (writeBoth f c).radio = c.radio
      ∧ (writeBoth f c).channel = c.channel ∧ (writeBoth f c).journal = c.journal ∧ (writeBoth f c).keypad = c.keypad
      ∧ (writeBoth f c).service = c.service ∧ (writeBoth f c).inTransit = c.inTransit := by
  unfold writeBoth; split
  all_goals simp

@[simp] theorem derive_frame (c : Controller) :
    (derive c).power = c.power ∧ (derive c).params = c.params ∧ (derive c).decommissioning = c.decommissioning
      ∧ (derive c).account.live = c.account.live ∧ (derive c).account.staged = c.account.staged
      ∧ (derive c).account.flight = c.account.flight ∧ (derive c).account.pendingOwn = c.account.pendingOwn
      ∧ (derive c).account.conditions = c.account.conditions ∧ (derive c).account.metered = c.account.metered
      ∧ (derive c).meter.mode = c.meter.mode ∧ (derive c).meter.request = c.meter.request
      ∧ (derive c).meter.chargeRem = c.meter.chargeRem ∧ (derive c).meter.lifetimeRem = c.meter.lifetimeRem
      ∧ (derive c).meter.lastGood = c.meter.lastGood ∧ (derive c).meter.misses = c.meter.misses
      ∧ (derive c).meter.band = c.meter.band ∧ (derive c).meter.lowRun = c.meter.lowRun
      ∧ (derive c).meter.recoveryRun = c.meter.recoveryRun ∧ (derive c).switch = c.switch ∧ (derive c).clock = c.clock
      ∧ (derive c).store = c.store ∧ (derive c).exchange = c.exchange ∧ (derive c).radio = c.radio
      ∧ (derive c).channel = c.channel ∧ (derive c).journal = c.journal ∧ (derive c).check = c.check
      ∧ (derive c).keypad.entry = c.keypad.entry ∧ (derive c).keypad.buffer = c.keypad.buffer
      ∧ (derive c).keypad.evaluation = c.keypad.evaluation ∧ (derive c).service = c.service ∧ (derive c).draws = c.draws := by
  unfold derive; dsimp only; repeat' split
  all_goals simp

@[simp] theorem latch_frame (x : Condition) (c : Controller) :
    (latch x c).power = c.power ∧ (latch x c).params = c.params ∧ (latch x c).decommissioning = c.decommissioning
      ∧ (latch x c).account.live = c.account.live ∧ (latch x c).account.staged = c.account.staged
      ∧ (latch x c).account.flight = c.account.flight ∧ (latch x c).account.state = c.account.state
      ∧ (latch x c).account.pendingOwn = c.account.pendingOwn ∧ (latch x c).account.metered = c.account.metered
      ∧ (latch x c).meter = c.meter ∧ (latch x c).switch = c.switch ∧ (latch x c).clock = c.clock
      ∧ (latch x c).store = c.store ∧ (latch x c).exchange = c.exchange ∧ (latch x c).radio = c.radio
      ∧ (latch x c).channel = c.channel ∧ (latch x c).journal = c.journal ∧ (latch x c).check = c.check
      ∧ (latch x c).keypad = c.keypad ∧ (latch x c).service = c.service ∧ (latch x c).inTransit = c.inTransit
      ∧ (latch x c).draws = c.draws := by
  exact ⟨rfl, rfl, rfl, rfl, rfl, rfl, rfl, rfl, rfl, rfl, rfl, rfl, rfl, rfl, rfl, rfl, rfl, rfl, rfl, rfl, rfl, rfl⟩

@[simp] theorem unlatch_frame (x : Condition) (c : Controller) :
    (unlatch x c).power = c.power ∧ (unlatch x c).params = c.params ∧ (unlatch x c).decommissioning = c.decommissioning
      ∧ (unlatch x c).account.live = c.account.live ∧ (unlatch x c).account.staged = c.account.staged
      ∧ (unlatch x c).account.flight = c.account.flight ∧ (unlatch x c).account.state = c.account.state
      ∧ (unlatch x c).account.pendingOwn = c.account.pendingOwn ∧ (unlatch x c).account.metered = c.account.metered
      ∧ (unlatch x c).meter = c.meter ∧ (unlatch x c).switch = c.switch ∧ (unlatch x c).clock = c.clock
      ∧ (unlatch x c).store = c.store ∧ (unlatch x c).exchange = c.exchange ∧ (unlatch x c).radio = c.radio
      ∧ (unlatch x c).channel = c.channel ∧ (unlatch x c).journal = c.journal ∧ (unlatch x c).check = c.check
      ∧ (unlatch x c).keypad = c.keypad ∧ (unlatch x c).service = c.service ∧ (unlatch x c).inTransit = c.inTransit
      ∧ (unlatch x c).draws = c.draws := by
  exact ⟨rfl, rfl, rfl, rfl, rfl, rfl, rfl, rfl, rfl, rfl, rfl, rfl, rfl, rfl, rfl, rfl, rfl, rfl, rfl, rfl, rfl, rfl⟩

@[simp] theorem answerDropped_frame (e : Option PendingEntry) (c : Controller) :
    (answerDropped e c).power = c.power ∧ (answerDropped e c).params = c.params
      ∧ (answerDropped e c).decommissioning = c.decommissioning ∧ (answerDropped e c).account = c.account
      ∧ (answerDropped e c).meter = c.meter ∧ (answerDropped e c).switch = c.switch ∧ (answerDropped e c).clock = c.clock
      ∧ (answerDropped e c).store = c.store ∧ (answerDropped e c).exchange = c.exchange
      ∧ (answerDropped e c).radio = c.radio ∧ (answerDropped e c).channel = c.channel
      ∧ (answerDropped e c).journal = c.journal ∧ (answerDropped e c).check = c.check
      ∧ (answerDropped e c).keypad = c.keypad ∧ (answerDropped e c).service = c.service
      ∧ (answerDropped e c).draws = c.draws := by
  unfold answerDropped; repeat' split
  all_goals simp

@[simp] theorem placeEntry_frame (e : PendingEntry) (c : Controller) :
    (placeEntry e c).power = c.power ∧ (placeEntry e c).params = c.params
      ∧ (placeEntry e c).decommissioning = c.decommissioning ∧ (placeEntry e c).account.live = c.account.live
      ∧ (placeEntry e c).account.staged = c.account.staged ∧ (placeEntry e c).account.flight = c.account.flight
      ∧ (placeEntry e c).account.state = c.account.state ∧ (placeEntry e c).account.conditions = c.account.conditions
      ∧ (placeEntry e c).account.metered = c.account.metered ∧ (placeEntry e c).meter = c.meter
      ∧ (placeEntry e c).switch = c.switch ∧ (placeEntry e c).clock = c.clock ∧ (placeEntry e c).store = c.store
      ∧ (placeEntry e c).exchange = c.exchange ∧ (placeEntry e c).radio = c.radio ∧ (placeEntry e c).channel = c.channel
      ∧ (placeEntry e c).journal = c.journal ∧ (placeEntry e c).keypad = c.keypad ∧ (placeEntry e c).service = c.service := by
  unfold placeEntry; dsimp only
  all_goals simp

@[simp] theorem changeEntry_frame (e : PendingEntry) (c : Controller) :
    (changeEntry e c).power = c.power ∧ (changeEntry e c).params = c.params
      ∧ (changeEntry e c).decommissioning = c.decommissioning ∧ (changeEntry e c).account.live = c.account.live
      ∧ (changeEntry e c).account.staged = c.account.staged ∧ (changeEntry e c).account.flight = c.account.flight
      ∧ (changeEntry e c).account.state = c.account.state ∧ (changeEntry e c).account.conditions = c.account.conditions
      ∧ (changeEntry e c).account.metered = c.account.metered ∧ (changeEntry e c).meter = c.meter
      ∧ (changeEntry e c).switch = c.switch ∧ (changeEntry e c).clock = c.clock ∧ (changeEntry e c).store = c.store
      ∧ (changeEntry e c).exchange = c.exchange ∧ (changeEntry e c).radio = c.radio
      ∧ (changeEntry e c).channel = c.channel ∧ (changeEntry e c).journal = c.journal
      ∧ (changeEntry e c).keypad = c.keypad ∧ (changeEntry e c).service = c.service
      ∧ (changeEntry e c).inTransit = c.inTransit := by
  unfold changeEntry; dsimp only; repeat' split
  all_goals simp

@[simp] theorem removeEntry_frame (n : Nat) (c : Controller) :
    (removeEntry n c).power = c.power ∧ (removeEntry n c).params = c.params
      ∧ (removeEntry n c).decommissioning = c.decommissioning ∧ (removeEntry n c).account.live = c.account.live
      ∧ (removeEntry n c).account.staged = c.account.staged ∧ (removeEntry n c).account.flight = c.account.flight
      ∧ (removeEntry n c).account.state = c.account.state ∧ (removeEntry n c).account.conditions = c.account.conditions
      ∧ (removeEntry n c).account.metered = c.account.metered ∧ (removeEntry n c).meter = c.meter
      ∧ (removeEntry n c).switch = c.switch ∧ (removeEntry n c).clock = c.clock ∧ (removeEntry n c).store = c.store
      ∧ (removeEntry n c).exchange = c.exchange ∧ (removeEntry n c).radio = c.radio
      ∧ (removeEntry n c).channel = c.channel ∧ (removeEntry n c).journal = c.journal ∧ (removeEntry n c).check = c.check
      ∧ (removeEntry n c).keypad = c.keypad ∧ (removeEntry n c).service = c.service
      ∧ (removeEntry n c).inTransit = c.inTransit ∧ (removeEntry n c).draws = c.draws := by
  exact ⟨rfl, rfl, rfl, rfl, rfl, rfl, rfl, rfl, rfl, rfl, rfl, rfl, rfl, rfl, rfl, rfl, rfl, rfl, rfl, rfl, rfl, rfl⟩

@[simp] theorem correctWords_frame (g : Region) (l : List BadWord) (c : Controller) :
    (l.foldl (fun c w => correctWord g w c) c).power = c.power
      ∧ (l.foldl (fun c w => correctWord g w c) c).params = c.params
      ∧ (l.foldl (fun c w => correctWord g w c) c).decommissioning = c.decommissioning
      ∧ (l.foldl (fun c w => correctWord g w c) c).account = c.account
      ∧ (l.foldl (fun c w => correctWord g w c) c).meter = c.meter
      ∧ (l.foldl (fun c w => correctWord g w c) c).switch = c.switch
      ∧ (l.foldl (fun c w => correctWord g w c) c).clock = c.clock
      ∧ (l.foldl (fun c w => correctWord g w c) c).store = c.store
      ∧ (l.foldl (fun c w => correctWord g w c) c).exchange = c.exchange
      ∧ (l.foldl (fun c w => correctWord g w c) c).radio = c.radio
      ∧ (l.foldl (fun c w => correctWord g w c) c).channel = c.channel
      ∧ (l.foldl (fun c w => correctWord g w c) c).journal = c.journal
      ∧ (l.foldl (fun c w => correctWord g w c) c).keypad = c.keypad
      ∧ (l.foldl (fun c w => correctWord g w c) c).service = c.service
      ∧ (l.foldl (fun c w => correctWord g w c) c).draws = c.draws := by
  induction l generalizing c with
  | nil => simp
  | cons w l ih => simp [ih]

@[simp] theorem noteErrors_frame (g : Region) (k : ErrorKind) (l : List BadWord) (c : Controller) :
    (l.foldl (fun c w => noteError g k w.address c) c).power = c.power
      ∧ (l.foldl (fun c w => noteError g k w.address c) c).params = c.params
      ∧ (l.foldl (fun c w => noteError g k w.address c) c).decommissioning = c.decommissioning
      ∧ (l.foldl (fun c w => noteError g k w.address c) c).account = c.account
      ∧ (l.foldl (fun c w => noteError g k w.address c) c).meter = c.meter
      ∧ (l.foldl (fun c w => noteError g k w.address c) c).switch = c.switch
      ∧ (l.foldl (fun c w => noteError g k w.address c) c).clock = c.clock
      ∧ (l.foldl (fun c w => noteError g k w.address c) c).store = c.store
      ∧ (l.foldl (fun c w => noteError g k w.address c) c).exchange = c.exchange
      ∧ (l.foldl (fun c w => noteError g k w.address c) c).radio = c.radio
      ∧ (l.foldl (fun c w => noteError g k w.address c) c).channel = c.channel
      ∧ (l.foldl (fun c w => noteError g k w.address c) c).journal = c.journal
      ∧ (l.foldl (fun c w => noteError g k w.address c) c).keypad = c.keypad
      ∧ (l.foldl (fun c w => noteError g k w.address c) c).service = c.service
      ∧ (l.foldl (fun c w => noteError g k w.address c) c).inTransit = c.inTransit
      ∧ (l.foldl (fun c w => noteError g k w.address c) c).draws = c.draws := by
  induction l generalizing c with
  | nil => simp
  | cons w l ih => simp [ih]

@[simp] theorem dropUnit_frame (u : EntryUnit) (c : Controller) :
    (dropUnit u c).power = c.power ∧ (dropUnit u c).params = c.params ∧ (dropUnit u c).decommissioning = c.decommissioning
      ∧ (dropUnit u c).account.live = c.account.live ∧ (dropUnit u c).account.staged = c.account.staged
      ∧ (dropUnit u c).account.flight = c.account.flight ∧ (dropUnit u c).account.state = c.account.state
      ∧ (dropUnit u c).account.conditions = c.account.conditions ∧ (dropUnit u c).account.metered = c.account.metered
      ∧ (dropUnit u c).meter = c.meter ∧ (dropUnit u c).switch = c.switch ∧ (dropUnit u c).clock = c.clock
      ∧ (dropUnit u c).store.arrivals = c.store.arrivals ∧ (dropUnit u c).store.cursor = c.store.cursor
      ∧ (dropUnit u c).exchange = c.exchange ∧ (dropUnit u c).radio = c.radio ∧ (dropUnit u c).channel = c.channel
      ∧ (dropUnit u c).journal = c.journal ∧ (dropUnit u c).check = c.check ∧ (dropUnit u c).keypad = c.keypad
      ∧ (dropUnit u c).service = c.service ∧ (dropUnit u c).draws = c.draws := by
  unfold dropUnit; dsimp only; repeat' split
  all_goals simp

@[simp] theorem faultWord_frame (w : BadWord) (c : Controller) :
    (faultWord w c).power = c.power ∧ (faultWord w c).params = c.params
      ∧ (faultWord w c).decommissioning = c.decommissioning ∧ (faultWord w c).account.live = c.account.live
      ∧ (faultWord w c).account.staged = c.account.staged ∧ (faultWord w c).account.flight = c.account.flight
      ∧ (faultWord w c).account.state = c.account.state ∧ (faultWord w c).account.conditions = c.account.conditions
      ∧ (faultWord w c).account.metered = c.account.metered ∧ (faultWord w c).meter = c.meter
      ∧ (faultWord w c).switch = c.switch ∧ (faultWord w c).clock = c.clock
      ∧ (faultWord w c).store.arrivals = c.store.arrivals ∧ (faultWord w c).store.cursor = c.store.cursor
      ∧ (faultWord w c).exchange = c.exchange ∧ (faultWord w c).radio = c.radio ∧ (faultWord w c).channel = c.channel
      ∧ (faultWord w c).journal = c.journal ∧ (faultWord w c).keypad = c.keypad ∧ (faultWord w c).service = c.service
      ∧ (faultWord w c).draws = c.draws := by
  simp [faultWord]

@[simp] theorem readWords_frame (l : List BadWord) (c : Controller) :
    (l.foldl (fun c w => if isSingle w then correctWord .store w c else faultWord w c) c).power = c.power
      ∧ (l.foldl (fun c w => if isSingle w then correctWord .store w c else faultWord w c) c).params = c.params
      ∧ (l.foldl (fun c w => if isSingle w then correctWord .store w c else faultWord w c) c).decommissioning = c.decommissioning
      ∧ (l.foldl (fun c w => if isSingle w then correctWord .store w c else faultWord w c) c).account.live = c.account.live
      ∧ (l.foldl (fun c w => if isSingle w then correctWord .store w c else faultWord w c) c).account.staged = c.account.staged
      ∧ (l.foldl (fun c w => if isSingle w then correctWord .store w c else faultWord w c) c).account.flight = c.account.flight
      ∧ (l.foldl (fun c w => if isSingle w then correctWord .store w c else faultWord w c) c).account.state = c.account.state
      ∧ (l.foldl (fun c w => if isSingle w then correctWord .store w c else faultWord w c) c).account.conditions = c.account.conditions
      ∧ (l.foldl (fun c w => if isSingle w then correctWord .store w c else faultWord w c) c).account.metered = c.account.metered
      ∧ (l.foldl (fun c w => if isSingle w then correctWord .store w c else faultWord w c) c).meter = c.meter
      ∧ (l.foldl (fun c w => if isSingle w then correctWord .store w c else faultWord w c) c).switch = c.switch
      ∧ (l.foldl (fun c w => if isSingle w then correctWord .store w c else faultWord w c) c).clock = c.clock
      ∧ (l.foldl (fun c w => if isSingle w then correctWord .store w c else faultWord w c) c).store.arrivals = c.store.arrivals
      ∧ (l.foldl (fun c w => if isSingle w then correctWord .store w c else faultWord w c) c).store.cursor = c.store.cursor
      ∧ (l.foldl (fun c w => if isSingle w then correctWord .store w c else faultWord w c) c).exchange = c.exchange
      ∧ (l.foldl (fun c w => if isSingle w then correctWord .store w c else faultWord w c) c).radio = c.radio
      ∧ (l.foldl (fun c w => if isSingle w then correctWord .store w c else faultWord w c) c).channel = c.channel
      ∧ (l.foldl (fun c w => if isSingle w then correctWord .store w c else faultWord w c) c).journal = c.journal
      ∧ (l.foldl (fun c w => if isSingle w then correctWord .store w c else faultWord w c) c).keypad = c.keypad
      ∧ (l.foldl (fun c w => if isSingle w then correctWord .store w c else faultWord w c) c).service = c.service
      ∧ (l.foldl (fun c w => if isSingle w then correctWord .store w c else faultWord w c) c).draws = c.draws := by
  induction l generalizing c with
  | nil => simp
  | cons w l ih =>
    simp only [List.foldl_cons]
    split <;> simp [ih]

@[simp] theorem readUnits_frame (sel : EntryUnit → Bool) (c : Controller) :
    (readUnits sel c).power = c.power ∧ (readUnits sel c).params = c.params
      ∧ (readUnits sel c).decommissioning = c.decommissioning ∧ (readUnits sel c).account.live = c.account.live
      ∧ (readUnits sel c).account.staged = c.account.staged ∧ (readUnits sel c).account.flight = c.account.flight
      ∧ (readUnits sel c).account.state = c.account.state ∧ (readUnits sel c).account.conditions = c.account.conditions
      ∧ (readUnits sel c).account.metered = c.account.metered ∧ (readUnits sel c).meter = c.meter
      ∧ (readUnits sel c).switch = c.switch ∧ (readUnits sel c).clock = c.clock
      ∧ (readUnits sel c).store.arrivals = c.store.arrivals ∧ (readUnits sel c).store.cursor = c.store.cursor
      ∧ (readUnits sel c).exchange = c.exchange ∧ (readUnits sel c).radio = c.radio
      ∧ (readUnits sel c).channel = c.channel ∧ (readUnits sel c).journal = c.journal
      ∧ (readUnits sel c).keypad = c.keypad ∧ (readUnits sel c).service = c.service ∧ (readUnits sel c).draws = c.draws := by
  simp [readUnits]

/-- What reading the pending-own list leaves alone: the store besides, since none of its units is read. -/
theorem readOwnWords_frame (l : List BadWord) (c : Controller) (h : ∀ w ∈ l, inPendingOwn w.unit = true) :
    (l.foldl (fun c w => if isSingle w then correctWord .store w c else faultWord w c) c).store = c.store := by
  induction l generalizing c with
  | nil => rfl
  | cons w l ih =>
    rw [List.foldl_cons, ih _ (fun x hx => h x (by simp [hx]))]
    have hw := h w (by simp)
    split
    · simp
    · unfold faultWord dropUnit
      cases hu : w.unit <;> simp_all [inPendingOwn]

theorem readPendingOwn_store (c : Controller) : (readPendingOwn c).store = c.store := by
  unfold readPendingOwn readUnits
  exact readOwnWords_frame _ _ (fun w hw => by simpa using (List.mem_filter.1 hw).2)

@[simp] theorem readPendingOwn_frame (c : Controller) :
    (readPendingOwn c).power = c.power ∧ (readPendingOwn c).params = c.params
      ∧ (readPendingOwn c).decommissioning = c.decommissioning ∧ (readPendingOwn c).account.live = c.account.live
      ∧ (readPendingOwn c).account.staged = c.account.staged ∧ (readPendingOwn c).account.flight = c.account.flight
      ∧ (readPendingOwn c).account.state = c.account.state
      ∧ (readPendingOwn c).account.conditions = c.account.conditions
      ∧ (readPendingOwn c).account.metered = c.account.metered ∧ (readPendingOwn c).meter = c.meter
      ∧ (readPendingOwn c).switch = c.switch ∧ (readPendingOwn c).clock = c.clock
      ∧ (readPendingOwn c).store = c.store ∧ (readPendingOwn c).exchange = c.exchange
      ∧ (readPendingOwn c).radio = c.radio ∧ (readPendingOwn c).channel = c.channel
      ∧ (readPendingOwn c).journal = c.journal ∧ (readPendingOwn c).keypad = c.keypad
      ∧ (readPendingOwn c).service = c.service ∧ (readPendingOwn c).draws = c.draws := by
  exact ⟨by simp [readPendingOwn], by simp [readPendingOwn], by simp [readPendingOwn], by simp [readPendingOwn],
    by simp [readPendingOwn], by simp [readPendingOwn], by simp [readPendingOwn], by simp [readPendingOwn],
    by simp [readPendingOwn], by simp [readPendingOwn], by simp [readPendingOwn], by simp [readPendingOwn],
    readPendingOwn_store c, by simp [readPendingOwn], by simp [readPendingOwn], by simp [readPendingOwn],
    by simp [readPendingOwn], by simp [readPendingOwn], by simp [readPendingOwn], by simp [readPendingOwn]⟩

@[simp] theorem trigger_frame (c : Controller) :
    (trigger c).power = c.power ∧ (trigger c).params = c.params ∧ (trigger c).decommissioning = c.decommissioning
      ∧ (trigger c).account.live = c.account.live ∧ (trigger c).account.staged = c.account.staged
      ∧ (trigger c).account.flight = c.account.flight ∧ (trigger c).account.state = c.account.state
      ∧ (trigger c).account.pendingOwn = c.account.pendingOwn ∧ (trigger c).account.conditions = c.account.conditions
      ∧ (trigger c).account.metered = c.account.metered ∧ (trigger c).meter = c.meter ∧ (trigger c).switch = c.switch
      ∧ (trigger c).clock = c.clock ∧ (trigger c).store = c.store ∧ (trigger c).exchange = c.exchange
      ∧ (trigger c).radio = c.radio ∧ (trigger c).channel = c.channel ∧ (trigger c).journal = c.journal
      ∧ (trigger c).check = c.check ∧ (trigger c).keypad = c.keypad ∧ (trigger c).service = c.service
      ∧ (trigger c).inTransit = c.inTransit ∧ (trigger c).draws = c.draws := by
  exact ⟨rfl, rfl, rfl, rfl, rfl, rfl, rfl, rfl, rfl, rfl, rfl, rfl, rfl, rfl, rfl, rfl, rfl, rfl, rfl, rfl, rfl, rfl, rfl⟩

@[simp] theorem endExamination_frame (c : Controller) :
    (endExamination c).power = c.power ∧ (endExamination c).params = c.params
      ∧ (endExamination c).decommissioning = c.decommissioning ∧ (endExamination c).account.live = c.account.live
      ∧ (endExamination c).account.staged = c.account.staged ∧ (endExamination c).account.flight = c.account.flight
      ∧ (endExamination c).account.state = c.account.state
      ∧ (endExamination c).account.conditions = c.account.conditions
      ∧ (endExamination c).account.metered = c.account.metered ∧ (endExamination c).meter = c.meter
      ∧ (endExamination c).switch = c.switch ∧ (endExamination c).clock = c.clock
      ∧ (endExamination c).store = c.store ∧ (endExamination c).exchange = c.exchange
      ∧ (endExamination c).radio = c.radio ∧ (endExamination c).channel = c.channel
      ∧ (endExamination c).journal = c.journal ∧ (endExamination c).keypad = c.keypad
      ∧ (endExamination c).service = c.service ∧ (endExamination c).draws = c.draws := by
  unfold endExamination; dsimp only; split
  all_goals simp

@[simp] theorem checkAccount_frame (c : Controller) :
    (checkAccount c).power = c.power ∧ (checkAccount c).params = c.params
      ∧ (checkAccount c).decommissioning = c.decommissioning ∧ (checkAccount c).account = c.account
      ∧ (checkAccount c).meter = c.meter ∧ (checkAccount c).switch = c.switch ∧ (checkAccount c).clock = c.clock
      ∧ (checkAccount c).store = c.store ∧ (checkAccount c).exchange = c.exchange ∧ (checkAccount c).radio = c.radio
      ∧ (checkAccount c).channel = c.channel ∧ (checkAccount c).journal = c.journal
      ∧ (checkAccount c).keypad = c.keypad ∧ (checkAccount c).service = c.service ∧ (checkAccount c).draws = c.draws := by
  simp [checkAccount]

@[simp] theorem examineHeld_frame (e : PendingEntry) (c : Controller) :
    (examineHeld e c).power = c.power ∧ (examineHeld e c).params = c.params
      ∧ (examineHeld e c).decommissioning = c.decommissioning ∧ (examineHeld e c).account.live = c.account.live
      ∧ (examineHeld e c).account.staged = c.account.staged ∧ (examineHeld e c).account.flight = c.account.flight
      ∧ (examineHeld e c).account.state = c.account.state
      ∧ (examineHeld e c).account.conditions = c.account.conditions
      ∧ (examineHeld e c).account.metered = c.account.metered ∧ (examineHeld e c).meter = c.meter
      ∧ (examineHeld e c).switch = c.switch ∧ (examineHeld e c).clock = c.clock ∧ (examineHeld e c).store = c.store
      ∧ (examineHeld e c).exchange = c.exchange ∧ (examineHeld e c).radio = c.radio
      ∧ (examineHeld e c).channel = c.channel ∧ (examineHeld e c).journal = c.journal
      ∧ (examineHeld e c).keypad = c.keypad ∧ (examineHeld e c).service = c.service := by
  simp [examineHeld]

@[simp] theorem finishPass_frame (n : Nat) (c : Controller) :
    (finishPass n c).power = c.power ∧ (finishPass n c).params = c.params
      ∧ (finishPass n c).decommissioning = c.decommissioning ∧ (finishPass n c).account.live = c.account.live
      ∧ (finishPass n c).account.staged = c.account.staged ∧ (finishPass n c).account.flight = c.account.flight
      ∧ (finishPass n c).account.state = c.account.state ∧ (finishPass n c).account.conditions = c.account.conditions
      ∧ (finishPass n c).account.metered = c.account.metered ∧ (finishPass n c).meter = c.meter
      ∧ (finishPass n c).switch = c.switch ∧ (finishPass n c).clock = c.clock ∧ (finishPass n c).store = c.store
      ∧ (finishPass n c).exchange = c.exchange ∧ (finishPass n c).radio = c.radio
      ∧ (finishPass n c).channel = c.channel ∧ (finishPass n c).journal = c.journal
      ∧ (finishPass n c).keypad = c.keypad ∧ (finishPass n c).service = c.service := by
  induction n generalizing c with
  | zero => simp [finishPass]
  | succ n ih =>
    unfold finishPass; dsimp only; repeat' split
    all_goals simp [ih]

@[simp] theorem keepOvertaken_frame (f : Flight) (c : Controller) :
    (keepOvertaken f c).power = c.power ∧ (keepOvertaken f c).params = c.params
      ∧ (keepOvertaken f c).decommissioning = c.decommissioning ∧ (keepOvertaken f c).account.live = c.account.live
      ∧ (keepOvertaken f c).account.staged = c.account.staged ∧ (keepOvertaken f c).account.flight = c.account.flight
      ∧ (keepOvertaken f c).account.state = c.account.state
      ∧ (keepOvertaken f c).account.conditions = c.account.conditions
      ∧ (keepOvertaken f c).account.metered = c.account.metered ∧ (keepOvertaken f c).meter = c.meter
      ∧ (keepOvertaken f c).switch = c.switch ∧ (keepOvertaken f c).clock = c.clock
      ∧ (keepOvertaken f c).store = c.store ∧ (keepOvertaken f c).exchange = c.exchange
      ∧ (keepOvertaken f c).radio = c.radio ∧ (keepOvertaken f c).channel = c.channel
      ∧ (keepOvertaken f c).journal = c.journal ∧ (keepOvertaken f c).keypad = c.keypad
      ∧ (keepOvertaken f c).service = c.service := by
  unfold keepOvertaken; repeat' split
  all_goals simp

@[simp] theorem overtakeReports_frame (c : Controller) :
    (overtakeReports c).power = c.power
      ∧ (overtakeReports c).params = c.params
      ∧ (overtakeReports c).decommissioning = c.decommissioning
      ∧ (overtakeReports c).account.live = c.account.live
      ∧ (overtakeReports c).account.staged = c.account.staged
      ∧ (overtakeReports c).account.flight = c.account.flight
      ∧ (overtakeReports c).account.state = c.account.state
      ∧ (overtakeReports c).account.pendingOwn = c.account.pendingOwn
      ∧ (overtakeReports c).account.conditions = c.account.conditions
      ∧ (overtakeReports c).account.metered = c.account.metered
      ∧ (overtakeReports c).account.statusOwed = c.account.statusOwed
      ∧ (overtakeReports c).account.pass = c.account.pass
      ∧ (overtakeReports c).account.passDue = c.account.passDue
      ∧ (overtakeReports c).meter = c.meter
      ∧ (overtakeReports c).switch = c.switch
      ∧ (overtakeReports c).clock = c.clock
      ∧ (overtakeReports c).store = c.store
      ∧ (overtakeReports c).exchange = c.exchange
      ∧ (overtakeReports c).radio = c.radio
      ∧ (overtakeReports c).channel = c.channel
      ∧ (overtakeReports c).journal = c.journal
      ∧ (overtakeReports c).check = c.check
      ∧ (overtakeReports c).keypad = c.keypad
      ∧ (overtakeReports c).service = c.service
      ∧ (overtakeReports c).inTransit = c.inTransit
      ∧ (overtakeReports c).draws = c.draws := by
  simp [overtakeReports]

@[simp] theorem overtakeFlight_frame (c : Controller) :
    (overtakeFlight c).power = c.power ∧ (overtakeFlight c).params = c.params
      ∧ (overtakeFlight c).decommissioning = c.decommissioning ∧ (overtakeFlight c).account.live = c.account.live
      ∧ (overtakeFlight c).account.state = c.account.state ∧ (overtakeFlight c).account.conditions = c.account.conditions
      ∧ (overtakeFlight c).account.metered = c.account.metered ∧ (overtakeFlight c).meter = c.meter
      ∧ (overtakeFlight c).switch = c.switch ∧ (overtakeFlight c).clock = c.clock ∧ (overtakeFlight c).store = c.store
      ∧ (overtakeFlight c).exchange = c.exchange ∧ (overtakeFlight c).radio = c.radio
      ∧ (overtakeFlight c).channel = c.channel ∧ (overtakeFlight c).journal = c.journal
      ∧ (overtakeFlight c).keypad = c.keypad ∧ (overtakeFlight c).service = c.service := by
  unfold overtakeFlight; dsimp only; repeat' split
  all_goals simp

@[simp] theorem enterHeld_frame (c : Controller) :
    (enterHeld c).power = c.power ∧ (enterHeld c).params = c.params ∧ (enterHeld c).decommissioning = c.decommissioning
      ∧ (enterHeld c).account.metered = c.account.metered ∧ (enterHeld c).meter.mode = c.meter.mode
      ∧ (enterHeld c).meter.request = c.meter.request ∧ (enterHeld c).meter.chargeRem = c.meter.chargeRem
      ∧ (enterHeld c).meter.lifetimeRem = c.meter.lifetimeRem ∧ (enterHeld c).meter.lastGood = c.meter.lastGood
      ∧ (enterHeld c).meter.misses = c.meter.misses ∧ (enterHeld c).meter.band = c.meter.band
      ∧ (enterHeld c).meter.lowRun = c.meter.lowRun ∧ (enterHeld c).meter.recoveryRun = c.meter.recoveryRun
      ∧ (enterHeld c).switch = c.switch ∧ (enterHeld c).clock = c.clock ∧ (enterHeld c).store = c.store
      ∧ (enterHeld c).exchange = c.exchange ∧ (enterHeld c).radio = c.radio ∧ (enterHeld c).channel = c.channel
      ∧ (enterHeld c).journal.pages = c.journal.pages ∧ (enterHeld c).journal.block = c.journal.block
      ∧ (enterHeld c).journal.commissioning = c.journal.commissioning ∧ (enterHeld c).keypad.entry = c.keypad.entry
      ∧ (enterHeld c).keypad.buffer = c.keypad.buffer ∧ (enterHeld c).keypad.evaluation = c.keypad.evaluation
      ∧ (enterHeld c).service = c.service := by
  unfold enterHeld; dsimp only; repeat' split
  all_goals simp

@[simp] theorem accountFault_frame (c : Controller) :
    (accountFault c).power = c.power ∧ (accountFault c).params = c.params
      ∧ (accountFault c).decommissioning = c.decommissioning ∧ (accountFault c).account.metered = c.account.metered
      ∧ (accountFault c).meter.mode = c.meter.mode ∧ (accountFault c).meter.request = c.meter.request
      ∧ (accountFault c).meter.chargeRem = c.meter.chargeRem ∧ (accountFault c).meter.lifetimeRem = c.meter.lifetimeRem
      ∧ (accountFault c).meter.lastGood = c.meter.lastGood ∧ (accountFault c).meter.misses = c.meter.misses
      ∧ (accountFault c).meter.band = c.meter.band ∧ (accountFault c).meter.lowRun = c.meter.lowRun
      ∧ (accountFault c).meter.recoveryRun = c.meter.recoveryRun ∧ (accountFault c).switch = c.switch
      ∧ (accountFault c).clock = c.clock ∧ (accountFault c).store = c.store ∧ (accountFault c).exchange = c.exchange
      ∧ (accountFault c).radio = c.radio ∧ (accountFault c).channel = c.channel
      ∧ (accountFault c).journal.pages = c.journal.pages ∧ (accountFault c).journal.block = c.journal.block
      ∧ (accountFault c).journal.commissioning = c.journal.commissioning ∧ (accountFault c).keypad.entry = c.keypad.entry
      ∧ (accountFault c).keypad.buffer = c.keypad.buffer ∧ (accountFault c).keypad.evaluation = c.keypad.evaluation
      ∧ (accountFault c).service = c.service := by
  unfold accountFault; repeat' split
  all_goals simp

@[simp] theorem readAccount_frame (c : Controller) :
    (readAccount c).power = c.power ∧ (readAccount c).params = c.params
      ∧ (readAccount c).decommissioning = c.decommissioning ∧ (readAccount c).account.metered = c.account.metered
      ∧ (readAccount c).meter.mode = c.meter.mode ∧ (readAccount c).meter.request = c.meter.request
      ∧ (readAccount c).meter.chargeRem = c.meter.chargeRem ∧ (readAccount c).meter.lifetimeRem = c.meter.lifetimeRem
      ∧ (readAccount c).meter.lastGood = c.meter.lastGood ∧ (readAccount c).meter.misses = c.meter.misses
      ∧ (readAccount c).meter.band = c.meter.band ∧ (readAccount c).meter.lowRun = c.meter.lowRun
      ∧ (readAccount c).meter.recoveryRun = c.meter.recoveryRun ∧ (readAccount c).switch = c.switch
      ∧ (readAccount c).clock = c.clock ∧ (readAccount c).store = c.store ∧ (readAccount c).exchange = c.exchange
      ∧ (readAccount c).radio = c.radio ∧ (readAccount c).channel = c.channel
      ∧ (readAccount c).journal.pages = c.journal.pages ∧ (readAccount c).journal.block = c.journal.block
      ∧ (readAccount c).journal.commissioning = c.journal.commissioning ∧ (readAccount c).keypad.entry = c.keypad.entry
      ∧ (readAccount c).keypad.buffer = c.keypad.buffer ∧ (readAccount c).keypad.evaluation = c.keypad.evaluation
      ∧ (readAccount c).service = c.service := by
  unfold readAccount; repeat' split
  all_goals simp

/-! ### Journal.lean -/

@[simp] theorem startWrite_frame (k : CommitKind) (c : Controller) :
    (startWrite k c).power = c.power ∧ (startWrite k c).params = c.params
      ∧ (startWrite k c).decommissioning = c.decommissioning ∧ (startWrite k c).account = c.account
      ∧ (startWrite k c).meter = c.meter ∧ (startWrite k c).switch = c.switch ∧ (startWrite k c).clock = c.clock
      ∧ (startWrite k c).store = c.store ∧ (startWrite k c).exchange = c.exchange ∧ (startWrite k c).radio = c.radio
      ∧ (startWrite k c).channel = c.channel ∧ (startWrite k c).journal.block = c.journal.block
      ∧ (startWrite k c).journal.commissioning = c.journal.commissioning ∧ (startWrite k c).check = c.check
      ∧ (startWrite k c).keypad = c.keypad ∧ (startWrite k c).service = c.service
      ∧ (startWrite k c).inTransit = c.inTransit ∧ (startWrite k c).draws = c.draws := by
  simp [startWrite]

@[simp] theorem verifiedLive_frame (c : Controller) :
    (verifiedLive c).power = c.power ∧ (verifiedLive c).params = c.params ∧ (verifiedLive c).decommissioning = c.decommissioning
      ∧ (verifiedLive c).account.flight = c.account.flight ∧ (verifiedLive c).account.pendingOwn = c.account.pendingOwn
      ∧ (verifiedLive c).account.conditions = c.account.conditions ∧ (verifiedLive c).account.metered = c.account.metered
      ∧ (verifiedLive c).meter.mode = c.meter.mode ∧ (verifiedLive c).meter.request = c.meter.request
      ∧ (verifiedLive c).meter.chargeRem = c.meter.chargeRem ∧ (verifiedLive c).meter.lifetimeRem = c.meter.lifetimeRem
      ∧ (verifiedLive c).meter.lastGood = c.meter.lastGood ∧ (verifiedLive c).meter.misses = c.meter.misses
      ∧ (verifiedLive c).meter.band = c.meter.band ∧ (verifiedLive c).meter.lowRun = c.meter.lowRun
      ∧ (verifiedLive c).meter.recoveryRun = c.meter.recoveryRun ∧ (verifiedLive c).switch = c.switch ∧ (verifiedLive c).clock = c.clock
      ∧ (verifiedLive c).store = c.store ∧ (verifiedLive c).exchange = c.exchange ∧ (verifiedLive c).radio = c.radio
      ∧ (verifiedLive c).channel = c.channel ∧ (verifiedLive c).journal = c.journal
      ∧ (verifiedLive c).keypad.entry = c.keypad.entry ∧ (verifiedLive c).keypad.buffer = c.keypad.buffer
      ∧ (verifiedLive c).keypad.evaluation = c.keypad.evaluation ∧ (verifiedLive c).service = c.service := by
  unfold verifiedLive; repeat' split
  all_goals simp

@[simp] theorem beginAttempt_frame (c : Controller) :
    (beginAttempt c).power = c.power ∧ (beginAttempt c).params = c.params
      ∧ (beginAttempt c).decommissioning = c.decommissioning ∧ (beginAttempt c).account.metered = c.account.metered
      ∧ (beginAttempt c).meter.mode = c.meter.mode ∧ (beginAttempt c).meter.request = c.meter.request
      ∧ (beginAttempt c).meter.chargeRem = c.meter.chargeRem ∧ (beginAttempt c).meter.lifetimeRem = c.meter.lifetimeRem
      ∧ (beginAttempt c).meter.lastGood = c.meter.lastGood ∧ (beginAttempt c).meter.misses = c.meter.misses
      ∧ (beginAttempt c).meter.band = c.meter.band ∧ (beginAttempt c).meter.lowRun = c.meter.lowRun
      ∧ (beginAttempt c).meter.recoveryRun = c.meter.recoveryRun ∧ (beginAttempt c).switch = c.switch
      ∧ (beginAttempt c).clock = c.clock ∧ (beginAttempt c).store = c.store ∧ (beginAttempt c).exchange = c.exchange
      ∧ (beginAttempt c).radio = c.radio ∧ (beginAttempt c).channel = c.channel
      ∧ (beginAttempt c).journal.block = c.journal.block
      ∧ (beginAttempt c).journal.commissioning = c.journal.commissioning ∧ (beginAttempt c).keypad.entry = c.keypad.entry
      ∧ (beginAttempt c).keypad.buffer = c.keypad.buffer ∧ (beginAttempt c).keypad.evaluation = c.keypad.evaluation
      ∧ (beginAttempt c).service = c.service := by
  unfold beginAttempt; dsimp only; repeat' split
  all_goals simp

@[simp] theorem attemptIfFree_frame (c : Controller) :
    (attemptIfFree c).power = c.power ∧ (attemptIfFree c).params = c.params
      ∧ (attemptIfFree c).decommissioning = c.decommissioning ∧ (attemptIfFree c).account.metered = c.account.metered
      ∧ (attemptIfFree c).meter.mode = c.meter.mode ∧ (attemptIfFree c).meter.request = c.meter.request
      ∧ (attemptIfFree c).meter.chargeRem = c.meter.chargeRem ∧ (attemptIfFree c).meter.lifetimeRem = c.meter.lifetimeRem
      ∧ (attemptIfFree c).meter.lastGood = c.meter.lastGood ∧ (attemptIfFree c).meter.misses = c.meter.misses
      ∧ (attemptIfFree c).meter.band = c.meter.band ∧ (attemptIfFree c).meter.lowRun = c.meter.lowRun
      ∧ (attemptIfFree c).meter.recoveryRun = c.meter.recoveryRun ∧ (attemptIfFree c).switch = c.switch
      ∧ (attemptIfFree c).clock = c.clock ∧ (attemptIfFree c).store = c.store ∧ (attemptIfFree c).exchange = c.exchange
      ∧ (attemptIfFree c).radio = c.radio ∧ (attemptIfFree c).channel = c.channel
      ∧ (attemptIfFree c).journal.block = c.journal.block
      ∧ (attemptIfFree c).journal.commissioning = c.journal.commissioning
      ∧ (attemptIfFree c).keypad.entry = c.keypad.entry ∧ (attemptIfFree c).keypad.buffer = c.keypad.buffer
      ∧ (attemptIfFree c).keypad.evaluation = c.keypad.evaluation ∧ (attemptIfFree c).service = c.service := by
  unfold attemptIfFree; repeat' split
  all_goals simp

@[simp] theorem requestPeriodic_frame (c : Controller) :
    (requestPeriodic c).power = c.power ∧ (requestPeriodic c).params = c.params
      ∧ (requestPeriodic c).decommissioning = c.decommissioning ∧ (requestPeriodic c).account.metered = c.account.metered
      ∧ (requestPeriodic c).meter.mode = c.meter.mode ∧ (requestPeriodic c).meter.request = c.meter.request
      ∧ (requestPeriodic c).meter.chargeRem = c.meter.chargeRem
      ∧ (requestPeriodic c).meter.lifetimeRem = c.meter.lifetimeRem
      ∧ (requestPeriodic c).meter.lastGood = c.meter.lastGood ∧ (requestPeriodic c).meter.misses = c.meter.misses
      ∧ (requestPeriodic c).meter.band = c.meter.band ∧ (requestPeriodic c).meter.lowRun = c.meter.lowRun
      ∧ (requestPeriodic c).meter.recoveryRun = c.meter.recoveryRun ∧ (requestPeriodic c).switch = c.switch
      ∧ (requestPeriodic c).clock = c.clock ∧ (requestPeriodic c).store = c.store
      ∧ (requestPeriodic c).exchange = c.exchange ∧ (requestPeriodic c).radio = c.radio
      ∧ (requestPeriodic c).channel = c.channel ∧ (requestPeriodic c).journal.block = c.journal.block
      ∧ (requestPeriodic c).journal.commissioning = c.journal.commissioning
      ∧ (requestPeriodic c).keypad.entry = c.keypad.entry ∧ (requestPeriodic c).keypad.buffer = c.keypad.buffer
      ∧ (requestPeriodic c).keypad.evaluation = c.keypad.evaluation ∧ (requestPeriodic c).service = c.service := by
  unfold requestPeriodic; dsimp only; repeat' split
  all_goals simp

@[simp] theorem requestStaged_frame (c : Controller) :
    (requestStaged c).power = c.power ∧ (requestStaged c).params = c.params
      ∧ (requestStaged c).decommissioning = c.decommissioning ∧ (requestStaged c).account.metered = c.account.metered
      ∧ (requestStaged c).meter.mode = c.meter.mode ∧ (requestStaged c).meter.request = c.meter.request
      ∧ (requestStaged c).meter.chargeRem = c.meter.chargeRem ∧ (requestStaged c).meter.lifetimeRem = c.meter.lifetimeRem
      ∧ (requestStaged c).meter.lastGood = c.meter.lastGood ∧ (requestStaged c).meter.misses = c.meter.misses
      ∧ (requestStaged c).meter.band = c.meter.band ∧ (requestStaged c).meter.lowRun = c.meter.lowRun
      ∧ (requestStaged c).meter.recoveryRun = c.meter.recoveryRun ∧ (requestStaged c).switch = c.switch
      ∧ (requestStaged c).clock = c.clock ∧ (requestStaged c).store = c.store ∧ (requestStaged c).exchange = c.exchange
      ∧ (requestStaged c).radio = c.radio ∧ (requestStaged c).channel = c.channel
      ∧ (requestStaged c).journal.block = c.journal.block
      ∧ (requestStaged c).journal.commissioning = c.journal.commissioning
      ∧ (requestStaged c).keypad.entry = c.keypad.entry ∧ (requestStaged c).keypad.buffer = c.keypad.buffer
      ∧ (requestStaged c).keypad.evaluation = c.keypad.evaluation ∧ (requestStaged c).service = c.service := by
  unfold requestStaged; dsimp only; repeat' split
  all_goals simp

@[simp] theorem startErasure_frame (c : Controller) :
    (startErasure c).power = c.power ∧ (startErasure c).params = c.params
      ∧ (startErasure c).decommissioning = c.decommissioning ∧ (startErasure c).account = c.account
      ∧ (startErasure c).meter = c.meter ∧ (startErasure c).switch = c.switch ∧ (startErasure c).clock = c.clock
      ∧ (startErasure c).store = c.store ∧ (startErasure c).exchange = c.exchange ∧ (startErasure c).radio = c.radio
      ∧ (startErasure c).channel = c.channel ∧ (startErasure c).journal.pages = c.journal.pages
      ∧ (startErasure c).journal.commissioning = c.journal.commissioning ∧ (startErasure c).check = c.check
      ∧ (startErasure c).keypad = c.keypad ∧ (startErasure c).service = c.service
      ∧ (startErasure c).inTransit = c.inTransit ∧ (startErasure c).draws = c.draws := by
  exact ⟨rfl, rfl, rfl, rfl, rfl, rfl, rfl, rfl, rfl, rfl, rfl, rfl, rfl, rfl, rfl, rfl, rfl, rfl⟩

@[simp] theorem beginErasure_frame (c : Controller) :
    (beginErasure c).power = c.power ∧ (beginErasure c).params = c.params
      ∧ (beginErasure c).decommissioning = c.decommissioning ∧ (beginErasure c).account = c.account
      ∧ (beginErasure c).meter = c.meter ∧ (beginErasure c).switch = c.switch ∧ (beginErasure c).clock = c.clock
      ∧ (beginErasure c).store = c.store ∧ (beginErasure c).exchange = c.exchange ∧ (beginErasure c).radio = c.radio
      ∧ (beginErasure c).channel = c.channel ∧ (beginErasure c).journal.pages = c.journal.pages
      ∧ (beginErasure c).journal.commissioning = c.journal.commissioning ∧ (beginErasure c).check = c.check
      ∧ (beginErasure c).keypad = c.keypad ∧ (beginErasure c).service = c.service
      ∧ (beginErasure c).inTransit = c.inTransit ∧ (beginErasure c).draws = c.draws := by
  exact ⟨rfl, rfl, rfl, rfl, rfl, rfl, rfl, rfl, rfl, rfl, rfl, rfl, rfl, rfl, rfl, rfl, rfl, rfl⟩

@[simp] theorem writeEnded_frame (c : Controller) :
    (writeEnded c).power = c.power ∧ (writeEnded c).params = c.params ∧ (writeEnded c).decommissioning = c.decommissioning
      ∧ (writeEnded c).account.metered = c.account.metered ∧ (writeEnded c).meter.mode = c.meter.mode
      ∧ (writeEnded c).meter.request = c.meter.request ∧ (writeEnded c).meter.chargeRem = c.meter.chargeRem
      ∧ (writeEnded c).meter.lifetimeRem = c.meter.lifetimeRem ∧ (writeEnded c).meter.lastGood = c.meter.lastGood
      ∧ (writeEnded c).meter.misses = c.meter.misses ∧ (writeEnded c).meter.band = c.meter.band
      ∧ (writeEnded c).meter.lowRun = c.meter.lowRun ∧ (writeEnded c).meter.recoveryRun = c.meter.recoveryRun
      ∧ (writeEnded c).switch = c.switch ∧ (writeEnded c).clock = c.clock ∧ (writeEnded c).store = c.store
      ∧ (writeEnded c).exchange = c.exchange ∧ (writeEnded c).radio = c.radio ∧ (writeEnded c).channel = c.channel
      ∧ (writeEnded c).journal.commissioning = c.journal.commissioning ∧ (writeEnded c).keypad.entry = c.keypad.entry
      ∧ (writeEnded c).keypad.buffer = c.keypad.buffer ∧ (writeEnded c).keypad.evaluation = c.keypad.evaluation
      ∧ (writeEnded c).service = c.service := by
  unfold writeEnded; dsimp only; repeat' split
  all_goals simp

/-! ### Store.lean -/

@[simp] theorem readTables_frame (c : Controller) :
    (readTables c).power = c.power ∧ (readTables c).params = c.params ∧ (readTables c).decommissioning = c.decommissioning
      ∧ (readTables c).account.live = c.account.live ∧ (readTables c).account.staged = c.account.staged
      ∧ (readTables c).account.flight = c.account.flight ∧ (readTables c).account.state = c.account.state
      ∧ (readTables c).account.conditions = c.account.conditions ∧ (readTables c).account.metered = c.account.metered
      ∧ (readTables c).meter = c.meter ∧ (readTables c).switch = c.switch ∧ (readTables c).clock = c.clock
      ∧ (readTables c).store.arrivals = c.store.arrivals ∧ (readTables c).store.cursor = c.store.cursor
      ∧ (readTables c).exchange = c.exchange ∧ (readTables c).radio = c.radio ∧ (readTables c).channel = c.channel
      ∧ (readTables c).journal = c.journal ∧ (readTables c).keypad = c.keypad ∧ (readTables c).service = c.service
      ∧ (readTables c).draws = c.draws := by
  simp [readTables]

@[simp] theorem readVouchers_frame (c : Controller) :
    (readVouchers c).power = c.power ∧ (readVouchers c).params = c.params ∧ (readVouchers c).decommissioning = c.decommissioning
      ∧ (readVouchers c).account.live = c.account.live ∧ (readVouchers c).account.staged = c.account.staged
      ∧ (readVouchers c).account.flight = c.account.flight ∧ (readVouchers c).account.state = c.account.state
      ∧ (readVouchers c).account.conditions = c.account.conditions ∧ (readVouchers c).account.metered = c.account.metered
      ∧ (readVouchers c).meter = c.meter ∧ (readVouchers c).switch = c.switch ∧ (readVouchers c).clock = c.clock
      ∧ (readVouchers c).store.arrivals = c.store.arrivals ∧ (readVouchers c).store.cursor = c.store.cursor
      ∧ (readVouchers c).exchange = c.exchange ∧ (readVouchers c).radio = c.radio ∧ (readVouchers c).channel = c.channel
      ∧ (readVouchers c).journal = c.journal ∧ (readVouchers c).keypad = c.keypad ∧ (readVouchers c).service = c.service
      ∧ (readVouchers c).draws = c.draws := by
  simp [readVouchers]

@[simp] theorem readReceipts_frame (c : Controller) :
    (readReceipts c).power = c.power ∧ (readReceipts c).params = c.params ∧ (readReceipts c).decommissioning = c.decommissioning
      ∧ (readReceipts c).account.live = c.account.live ∧ (readReceipts c).account.staged = c.account.staged
      ∧ (readReceipts c).account.flight = c.account.flight ∧ (readReceipts c).account.state = c.account.state
      ∧ (readReceipts c).account.conditions = c.account.conditions ∧ (readReceipts c).account.metered = c.account.metered
      ∧ (readReceipts c).meter = c.meter ∧ (readReceipts c).switch = c.switch ∧ (readReceipts c).clock = c.clock
      ∧ (readReceipts c).store.arrivals = c.store.arrivals ∧ (readReceipts c).store.cursor = c.store.cursor
      ∧ (readReceipts c).exchange = c.exchange ∧ (readReceipts c).radio = c.radio ∧ (readReceipts c).channel = c.channel
      ∧ (readReceipts c).journal = c.journal ∧ (readReceipts c).keypad = c.keypad ∧ (readReceipts c).service = c.service
      ∧ (readReceipts c).draws = c.draws := by
  simp [readReceipts]

@[simp] theorem readRetired_frame (c : Controller) :
    (readRetired c).power = c.power ∧ (readRetired c).params = c.params
      ∧ (readRetired c).decommissioning = c.decommissioning ∧ (readRetired c).account.live = c.account.live
      ∧ (readRetired c).account.staged = c.account.staged ∧ (readRetired c).account.flight = c.account.flight
      ∧ (readRetired c).account.state = c.account.state ∧ (readRetired c).account.conditions = c.account.conditions
      ∧ (readRetired c).account.metered = c.account.metered ∧ (readRetired c).meter = c.meter
      ∧ (readRetired c).switch = c.switch ∧ (readRetired c).clock = c.clock
      ∧ (readRetired c).store.arrivals = c.store.arrivals ∧ (readRetired c).store.cursor = c.store.cursor
      ∧ (readRetired c).exchange = c.exchange ∧ (readRetired c).radio = c.radio ∧ (readRetired c).channel = c.channel
      ∧ (readRetired c).journal = c.journal ∧ (readRetired c).keypad = c.keypad ∧ (readRetired c).service = c.service
      ∧ (readRetired c).draws = c.draws := by
  simp [readRetired]

@[simp] theorem readForCarry_frame (l : List ItemKey) (c : Controller) :
    (readForCarry l c).power = c.power ∧ (readForCarry l c).params = c.params ∧ (readForCarry l c).decommissioning = c.decommissioning
      ∧ (readForCarry l c).account.live = c.account.live ∧ (readForCarry l c).account.staged = c.account.staged
      ∧ (readForCarry l c).account.flight = c.account.flight ∧ (readForCarry l c).account.state = c.account.state
      ∧ (readForCarry l c).account.conditions = c.account.conditions ∧ (readForCarry l c).account.metered = c.account.metered
      ∧ (readForCarry l c).meter = c.meter ∧ (readForCarry l c).switch = c.switch ∧ (readForCarry l c).clock = c.clock
      ∧ (readForCarry l c).store.arrivals = c.store.arrivals ∧ (readForCarry l c).store.cursor = c.store.cursor
      ∧ (readForCarry l c).exchange = c.exchange ∧ (readForCarry l c).radio = c.radio ∧ (readForCarry l c).channel = c.channel
      ∧ (readForCarry l c).journal = c.journal ∧ (readForCarry l c).keypad = c.keypad ∧ (readForCarry l c).service = c.service
      ∧ (readForCarry l c).draws = c.draws := by
  simp [readForCarry]

@[simp] theorem readForEntry_frame (c : Controller) :
    (readForEntry c).power = c.power ∧ (readForEntry c).params = c.params ∧ (readForEntry c).decommissioning = c.decommissioning
      ∧ (readForEntry c).account.live = c.account.live ∧ (readForEntry c).account.staged = c.account.staged
      ∧ (readForEntry c).account.flight = c.account.flight ∧ (readForEntry c).account.state = c.account.state
      ∧ (readForEntry c).account.conditions = c.account.conditions ∧ (readForEntry c).account.metered = c.account.metered
      ∧ (readForEntry c).meter = c.meter ∧ (readForEntry c).switch = c.switch ∧ (readForEntry c).clock = c.clock
      ∧ (readForEntry c).store.arrivals = c.store.arrivals ∧ (readForEntry c).store.cursor = c.store.cursor
      ∧ (readForEntry c).exchange = c.exchange ∧ (readForEntry c).radio = c.radio ∧ (readForEntry c).channel = c.channel
      ∧ (readForEntry c).journal = c.journal ∧ (readForEntry c).keypad = c.keypad ∧ (readForEntry c).service = c.service
      ∧ (readForEntry c).draws = c.draws := by
  simp [readForEntry]

@[simp] theorem retireKey_frame (k : ItemKey) (c : Controller) :
    (retireKey k c).power = c.power ∧ (retireKey k c).params = c.params
      ∧ (retireKey k c).decommissioning = c.decommissioning ∧ (retireKey k c).account.live = c.account.live
      ∧ (retireKey k c).account.staged = c.account.staged ∧ (retireKey k c).account.flight = c.account.flight
      ∧ (retireKey k c).account.state = c.account.state ∧ (retireKey k c).account.conditions = c.account.conditions
      ∧ (retireKey k c).account.metered = c.account.metered ∧ (retireKey k c).meter = c.meter
      ∧ (retireKey k c).switch = c.switch ∧ (retireKey k c).clock = c.clock
      ∧ (retireKey k c).store.arrivals = c.store.arrivals ∧ (retireKey k c).store.cursor = c.store.cursor
      ∧ (retireKey k c).exchange = c.exchange ∧ (retireKey k c).radio = c.radio ∧ (retireKey k c).channel = c.channel
      ∧ (retireKey k c).journal = c.journal ∧ (retireKey k c).keypad = c.keypad ∧ (retireKey k c).service = c.service := by
  unfold retireKey; dsimp only; repeat' split
  all_goals simp

@[simp] theorem retireVoucherKey_frame (k : ItemKey) (c : Controller) :
    (retireVoucherKey k c).power = c.power ∧ (retireVoucherKey k c).params = c.params
      ∧ (retireVoucherKey k c).decommissioning = c.decommissioning ∧ (retireVoucherKey k c).account.live = c.account.live
      ∧ (retireVoucherKey k c).account.staged = c.account.staged
      ∧ (retireVoucherKey k c).account.flight = c.account.flight ∧ (retireVoucherKey k c).account.state = c.account.state
      ∧ (retireVoucherKey k c).account.conditions = c.account.conditions
      ∧ (retireVoucherKey k c).account.metered = c.account.metered ∧ (retireVoucherKey k c).meter = c.meter
      ∧ (retireVoucherKey k c).switch = c.switch ∧ (retireVoucherKey k c).clock = c.clock
      ∧ (retireVoucherKey k c).store.arrivals = c.store.arrivals ∧ (retireVoucherKey k c).store.cursor = c.store.cursor
      ∧ (retireVoucherKey k c).exchange = c.exchange ∧ (retireVoucherKey k c).radio = c.radio
      ∧ (retireVoucherKey k c).channel = c.channel ∧ (retireVoucherKey k c).journal = c.journal
      ∧ (retireVoucherKey k c).keypad = c.keypad ∧ (retireVoucherKey k c).service = c.service := by
  unfold retireVoucherKey; dsimp only; repeat' split
  all_goals simp

@[simp] theorem retireConcerned_frame (r : Receipt) (c : Controller) :
    (retireConcerned r c).power = c.power ∧ (retireConcerned r c).params = c.params
      ∧ (retireConcerned r c).decommissioning = c.decommissioning ∧ (retireConcerned r c).account.live = c.account.live
      ∧ (retireConcerned r c).account.staged = c.account.staged ∧ (retireConcerned r c).account.flight = c.account.flight
      ∧ (retireConcerned r c).account.state = c.account.state
      ∧ (retireConcerned r c).account.conditions = c.account.conditions
      ∧ (retireConcerned r c).account.metered = c.account.metered ∧ (retireConcerned r c).meter = c.meter
      ∧ (retireConcerned r c).switch = c.switch ∧ (retireConcerned r c).clock = c.clock
      ∧ (retireConcerned r c).store.arrivals = c.store.arrivals ∧ (retireConcerned r c).store.cursor = c.store.cursor
      ∧ (retireConcerned r c).exchange = c.exchange ∧ (retireConcerned r c).radio = c.radio
      ∧ (retireConcerned r c).channel = c.channel ∧ (retireConcerned r c).journal = c.journal
      ∧ (retireConcerned r c).keypad = c.keypad ∧ (retireConcerned r c).service = c.service := by
  unfold retireConcerned; repeat' split
  all_goals simp

@[simp] theorem retireReceiptKey_frame (k : ItemKey) (c : Controller) :
    (retireReceiptKey k c).power = c.power ∧ (retireReceiptKey k c).params = c.params
      ∧ (retireReceiptKey k c).decommissioning = c.decommissioning ∧ (retireReceiptKey k c).account.live = c.account.live
      ∧ (retireReceiptKey k c).account.staged = c.account.staged
      ∧ (retireReceiptKey k c).account.flight = c.account.flight ∧ (retireReceiptKey k c).account.state = c.account.state
      ∧ (retireReceiptKey k c).account.conditions = c.account.conditions
      ∧ (retireReceiptKey k c).account.metered = c.account.metered ∧ (retireReceiptKey k c).meter = c.meter
      ∧ (retireReceiptKey k c).switch = c.switch ∧ (retireReceiptKey k c).clock = c.clock
      ∧ (retireReceiptKey k c).store.arrivals = c.store.arrivals ∧ (retireReceiptKey k c).store.cursor = c.store.cursor
      ∧ (retireReceiptKey k c).exchange = c.exchange ∧ (retireReceiptKey k c).radio = c.radio
      ∧ (retireReceiptKey k c).channel = c.channel ∧ (retireReceiptKey k c).journal = c.journal
      ∧ (retireReceiptKey k c).keypad = c.keypad ∧ (retireReceiptKey k c).service = c.service := by
  simp [retireReceiptKey]

@[simp] theorem nextArrival_frame (c : Controller) :
    (nextArrival c).power = c.power ∧ (nextArrival c).params = c.params
      ∧ (nextArrival c).decommissioning = c.decommissioning ∧ (nextArrival c).account = c.account
      ∧ (nextArrival c).meter = c.meter ∧ (nextArrival c).switch = c.switch ∧ (nextArrival c).clock = c.clock
      ∧ (nextArrival c).store.vouchers = c.store.vouchers ∧ (nextArrival c).store.receipts = c.store.receipts
      ∧ (nextArrival c).store.retired = c.store.retired ∧ (nextArrival c).store.cursor = c.store.cursor
      ∧ (nextArrival c).store.log = c.store.log ∧ (nextArrival c).exchange = c.exchange ∧ (nextArrival c).radio = c.radio
      ∧ (nextArrival c).channel = c.channel ∧ (nextArrival c).journal = c.journal ∧ (nextArrival c).check = c.check
      ∧ (nextArrival c).keypad = c.keypad ∧ (nextArrival c).service = c.service ∧ (nextArrival c).inTransit = c.inTransit
      ∧ (nextArrival c).draws = c.draws := by
  exact ⟨rfl, rfl, rfl, rfl, rfl, rfl, rfl, rfl, rfl, rfl, rfl, rfl, rfl, rfl, rfl, rfl, rfl, rfl, rfl, rfl, rfl⟩

@[simp] theorem reportDisplaced_frame (b : Bool) (c : Controller) :
    (reportDisplaced b c).power = c.power ∧ (reportDisplaced b c).params = c.params
      ∧ (reportDisplaced b c).decommissioning = c.decommissioning ∧ (reportDisplaced b c).account = c.account
      ∧ (reportDisplaced b c).meter = c.meter ∧ (reportDisplaced b c).switch = c.switch
      ∧ (reportDisplaced b c).clock = c.clock ∧ (reportDisplaced b c).store = c.store
      ∧ (reportDisplaced b c).exchange = c.exchange ∧ (reportDisplaced b c).radio = c.radio
      ∧ (reportDisplaced b c).channel = c.channel ∧ (reportDisplaced b c).journal = c.journal
      ∧ (reportDisplaced b c).check = c.check ∧ (reportDisplaced b c).keypad = c.keypad
      ∧ (reportDisplaced b c).service = c.service ∧ (reportDisplaced b c).draws = c.draws := by
  unfold reportDisplaced; repeat' split
  all_goals simp

@[simp] theorem storeVoucher_frame (n : Nat) (v : Voucher) (b : Bool) (c : Controller) :
    (storeVoucher n v b c).power = c.power ∧ (storeVoucher n v b c).params = c.params
      ∧ (storeVoucher n v b c).decommissioning = c.decommissioning ∧ (storeVoucher n v b c).account = c.account
      ∧ (storeVoucher n v b c).meter = c.meter ∧ (storeVoucher n v b c).switch = c.switch
      ∧ (storeVoucher n v b c).clock = c.clock ∧ (storeVoucher n v b c).store.receipts = c.store.receipts
      ∧ (storeVoucher n v b c).store.retired = c.store.retired ∧ (storeVoucher n v b c).store.cursor = c.store.cursor
      ∧ (storeVoucher n v b c).store.log = c.store.log ∧ (storeVoucher n v b c).exchange = c.exchange
      ∧ (storeVoucher n v b c).radio = c.radio ∧ (storeVoucher n v b c).channel = c.channel
      ∧ (storeVoucher n v b c).journal = c.journal ∧ (storeVoucher n v b c).keypad = c.keypad
      ∧ (storeVoucher n v b c).service = c.service := by
  simp [storeVoucher]

@[simp] theorem storeReceipt_frame (n : Nat) (r : Receipt) (b : Bool) (c : Controller) :
    (storeReceipt n r b c).power = c.power ∧ (storeReceipt n r b c).params = c.params
      ∧ (storeReceipt n r b c).decommissioning = c.decommissioning ∧ (storeReceipt n r b c).account = c.account
      ∧ (storeReceipt n r b c).meter = c.meter ∧ (storeReceipt n r b c).switch = c.switch
      ∧ (storeReceipt n r b c).clock = c.clock ∧ (storeReceipt n r b c).store.vouchers = c.store.vouchers
      ∧ (storeReceipt n r b c).store.retired = c.store.retired ∧ (storeReceipt n r b c).store.cursor = c.store.cursor
      ∧ (storeReceipt n r b c).store.log = c.store.log ∧ (storeReceipt n r b c).exchange = c.exchange
      ∧ (storeReceipt n r b c).radio = c.radio ∧ (storeReceipt n r b c).channel = c.channel
      ∧ (storeReceipt n r b c).journal = c.journal ∧ (storeReceipt n r b c).keypad = c.keypad
      ∧ (storeReceipt n r b c).service = c.service := by
  simp [storeReceipt]

@[simp] theorem appendLog_frame (r : Receipt) (c : Controller) :
    (appendLog r c).power = c.power ∧ (appendLog r c).params = c.params
      ∧ (appendLog r c).decommissioning = c.decommissioning ∧ (appendLog r c).account = c.account
      ∧ (appendLog r c).meter = c.meter ∧ (appendLog r c).switch = c.switch ∧ (appendLog r c).clock = c.clock
      ∧ (appendLog r c).store.vouchers = c.store.vouchers ∧ (appendLog r c).store.receipts = c.store.receipts
      ∧ (appendLog r c).store.retired = c.store.retired ∧ (appendLog r c).store.arrivals = c.store.arrivals
      ∧ (appendLog r c).store.cursor = c.store.cursor ∧ (appendLog r c).exchange = c.exchange
      ∧ (appendLog r c).radio = c.radio ∧ (appendLog r c).channel = c.channel ∧ (appendLog r c).journal = c.journal
      ∧ (appendLog r c).keypad = c.keypad ∧ (appendLog r c).service = c.service ∧ (appendLog r c).inTransit = c.inTransit := by
  simp [appendLog]

@[simp] theorem moveOwnUpTo_frame (n : Nat) (c : Controller) :
    (moveOwnUpTo n c).power = c.power ∧ (moveOwnUpTo n c).params = c.params
      ∧ (moveOwnUpTo n c).decommissioning = c.decommissioning ∧ (moveOwnUpTo n c).account.live = c.account.live
      ∧ (moveOwnUpTo n c).account.staged = c.account.staged ∧ (moveOwnUpTo n c).account.flight = c.account.flight
      ∧ (moveOwnUpTo n c).account.state = c.account.state ∧ (moveOwnUpTo n c).account.conditions = c.account.conditions
      ∧ (moveOwnUpTo n c).account.metered = c.account.metered ∧ (moveOwnUpTo n c).meter = c.meter
      ∧ (moveOwnUpTo n c).switch = c.switch ∧ (moveOwnUpTo n c).clock = c.clock
      ∧ (moveOwnUpTo n c).store.arrivals = c.store.arrivals ∧ (moveOwnUpTo n c).store.cursor = c.store.cursor
      ∧ (moveOwnUpTo n c).exchange = c.exchange ∧ (moveOwnUpTo n c).radio = c.radio
      ∧ (moveOwnUpTo n c).channel = c.channel ∧ (moveOwnUpTo n c).journal = c.journal
      ∧ (moveOwnUpTo n c).keypad = c.keypad ∧ (moveOwnUpTo n c).service = c.service := by
  induction n generalizing c with
  | zero => simp [moveOwnUpTo]
  | succ n ih =>
    unfold moveOwnUpTo; repeat' split
    all_goals simp [ih]

@[simp] theorem moveOwn_frame (c : Controller) :
    (moveOwn c).power = c.power ∧ (moveOwn c).params = c.params ∧ (moveOwn c).decommissioning = c.decommissioning
      ∧ (moveOwn c).account.live = c.account.live ∧ (moveOwn c).account.staged = c.account.staged
      ∧ (moveOwn c).account.flight = c.account.flight ∧ (moveOwn c).account.state = c.account.state
      ∧ (moveOwn c).account.conditions = c.account.conditions ∧ (moveOwn c).account.metered = c.account.metered
      ∧ (moveOwn c).meter = c.meter ∧ (moveOwn c).switch = c.switch ∧ (moveOwn c).clock = c.clock
      ∧ (moveOwn c).store.arrivals = c.store.arrivals ∧ (moveOwn c).store.cursor = c.store.cursor
      ∧ (moveOwn c).exchange = c.exchange ∧ (moveOwn c).radio = c.radio ∧ (moveOwn c).channel = c.channel
      ∧ (moveOwn c).journal = c.journal ∧ (moveOwn c).keypad = c.keypad ∧ (moveOwn c).service = c.service := by
  unfold moveOwn; repeat' split
  all_goals simp

@[simp] theorem readLog_frame (c : Controller) :
    (readLog c).power = c.power ∧ (readLog c).params = c.params ∧ (readLog c).decommissioning = c.decommissioning
      ∧ (readLog c).account.live = c.account.live ∧ (readLog c).account.staged = c.account.staged
      ∧ (readLog c).account.flight = c.account.flight ∧ (readLog c).account.state = c.account.state
      ∧ (readLog c).account.conditions = c.account.conditions ∧ (readLog c).account.metered = c.account.metered
      ∧ (readLog c).meter = c.meter ∧ (readLog c).switch = c.switch ∧ (readLog c).clock = c.clock
      ∧ (readLog c).store.arrivals = c.store.arrivals ∧ (readLog c).store.cursor = c.store.cursor
      ∧ (readLog c).exchange = c.exchange ∧ (readLog c).radio = c.radio ∧ (readLog c).channel = c.channel
      ∧ (readLog c).journal = c.journal ∧ (readLog c).keypad = c.keypad ∧ (readLog c).service = c.service := by
  unfold readLog; dsimp only; repeat' split
  all_goals simp

@[simp] theorem collectReceipt_frame (r : Receipt) (c : Controller) :
    (collectReceipt r c).power = c.power ∧ (collectReceipt r c).params = c.params
      ∧ (collectReceipt r c).decommissioning = c.decommissioning ∧ (collectReceipt r c).account.live = c.account.live
      ∧ (collectReceipt r c).account.staged = c.account.staged ∧ (collectReceipt r c).account.flight = c.account.flight
      ∧ (collectReceipt r c).account.state = c.account.state
      ∧ (collectReceipt r c).account.conditions = c.account.conditions
      ∧ (collectReceipt r c).account.metered = c.account.metered ∧ (collectReceipt r c).meter = c.meter
      ∧ (collectReceipt r c).switch = c.switch ∧ (collectReceipt r c).clock = c.clock
      ∧ (collectReceipt r c).store.arrivals = c.store.arrivals ∧ (collectReceipt r c).store.cursor = c.store.cursor
      ∧ (collectReceipt r c).exchange = c.exchange ∧ (collectReceipt r c).radio = c.radio
      ∧ (collectReceipt r c).channel = c.channel ∧ (collectReceipt r c).journal = c.journal
      ∧ (collectReceipt r c).keypad = c.keypad ∧ (collectReceipt r c).service = c.service := by
  simp [collectReceipt]

@[simp] theorem readStore_frame (l : List ItemKey) (c : Controller) :
    (readStore l c).power = c.power ∧ (readStore l c).params = c.params ∧ (readStore l c).decommissioning = c.decommissioning
      ∧ (readStore l c).account.live = c.account.live ∧ (readStore l c).account.staged = c.account.staged
      ∧ (readStore l c).account.flight = c.account.flight ∧ (readStore l c).account.state = c.account.state
      ∧ (readStore l c).account.conditions = c.account.conditions ∧ (readStore l c).account.metered = c.account.metered
      ∧ (readStore l c).meter = c.meter ∧ (readStore l c).switch = c.switch ∧ (readStore l c).clock = c.clock
      ∧ (readStore l c).store.arrivals = c.store.arrivals ∧ (readStore l c).store.cursor = c.store.cursor
      ∧ (readStore l c).exchange = c.exchange ∧ (readStore l c).radio = c.radio ∧ (readStore l c).channel = c.channel
      ∧ (readStore l c).journal = c.journal ∧ (readStore l c).keypad = c.keypad ∧ (readStore l c).service = c.service := by
  unfold readStore; dsimp only; repeat' split
  all_goals simp

@[simp] theorem takeVoucher_frame (n : Option Nat) (v : Voucher) (c : Controller) :
    (takeVoucher n v c).power = c.power ∧ (takeVoucher n v c).params = c.params
      ∧ (takeVoucher n v c).decommissioning = c.decommissioning ∧ (takeVoucher n v c).account.live = c.account.live
      ∧ (takeVoucher n v c).account.staged = c.account.staged ∧ (takeVoucher n v c).account.flight = c.account.flight
      ∧ (takeVoucher n v c).account.state = c.account.state
      ∧ (takeVoucher n v c).account.conditions = c.account.conditions
      ∧ (takeVoucher n v c).account.metered = c.account.metered ∧ (takeVoucher n v c).meter = c.meter
      ∧ (takeVoucher n v c).switch = c.switch ∧ (takeVoucher n v c).clock = c.clock
      ∧ (takeVoucher n v c).store.cursor = c.store.cursor ∧ (takeVoucher n v c).exchange = c.exchange
      ∧ (takeVoucher n v c).radio = c.radio ∧ (takeVoucher n v c).channel = c.channel
      ∧ (takeVoucher n v c).journal = c.journal ∧ (takeVoucher n v c).keypad = c.keypad
      ∧ (takeVoucher n v c).service = c.service := by
  unfold takeVoucher; repeat' split
  all_goals simp

@[simp] theorem takeReceipt_frame (n : Option Nat) (r : Receipt) (c : Controller) :
    (takeReceipt n r c).power = c.power ∧ (takeReceipt n r c).params = c.params
      ∧ (takeReceipt n r c).decommissioning = c.decommissioning ∧ (takeReceipt n r c).account.live = c.account.live
      ∧ (takeReceipt n r c).account.staged = c.account.staged ∧ (takeReceipt n r c).account.flight = c.account.flight
      ∧ (takeReceipt n r c).account.state = c.account.state
      ∧ (takeReceipt n r c).account.conditions = c.account.conditions
      ∧ (takeReceipt n r c).account.metered = c.account.metered ∧ (takeReceipt n r c).meter = c.meter
      ∧ (takeReceipt n r c).switch = c.switch ∧ (takeReceipt n r c).clock = c.clock
      ∧ (takeReceipt n r c).store.cursor = c.store.cursor ∧ (takeReceipt n r c).exchange = c.exchange
      ∧ (takeReceipt n r c).radio = c.radio ∧ (takeReceipt n r c).channel = c.channel
      ∧ (takeReceipt n r c).journal = c.journal ∧ (takeReceipt n r c).keypad = c.keypad
      ∧ (takeReceipt n r c).service = c.service := by
  unfold takeReceipt; repeat' split
  all_goals simp

@[simp] theorem placeOwnReceipt_frame (r : Receipt) (c : Controller) :
    (placeOwnReceipt r c).power = c.power ∧ (placeOwnReceipt r c).params = c.params
      ∧ (placeOwnReceipt r c).decommissioning = c.decommissioning ∧ (placeOwnReceipt r c).account.live = c.account.live
      ∧ (placeOwnReceipt r c).account.staged = c.account.staged ∧ (placeOwnReceipt r c).account.flight = c.account.flight
      ∧ (placeOwnReceipt r c).account.state = c.account.state
      ∧ (placeOwnReceipt r c).account.conditions = c.account.conditions
      ∧ (placeOwnReceipt r c).account.metered = c.account.metered ∧ (placeOwnReceipt r c).meter = c.meter
      ∧ (placeOwnReceipt r c).switch = c.switch ∧ (placeOwnReceipt r c).clock = c.clock
      ∧ (placeOwnReceipt r c).store.cursor = c.store.cursor ∧ (placeOwnReceipt r c).exchange = c.exchange
      ∧ (placeOwnReceipt r c).radio = c.radio ∧ (placeOwnReceipt r c).channel = c.channel
      ∧ (placeOwnReceipt r c).journal = c.journal ∧ (placeOwnReceipt r c).keypad = c.keypad
      ∧ (placeOwnReceipt r c).service = c.service := by
  simp [placeOwnReceipt]

@[simp] theorem enterVoucher_frame (v : Voucher) (c : Controller) :
    (enterVoucher v c).power = c.power ∧ (enterVoucher v c).params = c.params
      ∧ (enterVoucher v c).decommissioning = c.decommissioning ∧ (enterVoucher v c).account = c.account
      ∧ (enterVoucher v c).meter = c.meter ∧ (enterVoucher v c).switch = c.switch ∧ (enterVoucher v c).clock = c.clock
      ∧ (enterVoucher v c).store.receipts = c.store.receipts ∧ (enterVoucher v c).store.retired = c.store.retired
      ∧ (enterVoucher v c).store.cursor = c.store.cursor ∧ (enterVoucher v c).store.log = c.store.log
      ∧ (enterVoucher v c).exchange = c.exchange ∧ (enterVoucher v c).radio = c.radio
      ∧ (enterVoucher v c).channel = c.channel ∧ (enterVoucher v c).journal = c.journal
      ∧ (enterVoucher v c).keypad = c.keypad ∧ (enterVoucher v c).service = c.service := by
  unfold enterVoucher; repeat' split
  all_goals simp

@[simp] theorem sweepVouchers_frame (d : Nat) (l : List Nat) (c : Controller) :
    (sweepVouchers d l c).power = c.power ∧ (sweepVouchers d l c).params = c.params
      ∧ (sweepVouchers d l c).decommissioning = c.decommissioning ∧ (sweepVouchers d l c).account.live = c.account.live
      ∧ (sweepVouchers d l c).account.staged = c.account.staged ∧ (sweepVouchers d l c).account.flight = c.account.flight
      ∧ (sweepVouchers d l c).account.state = c.account.state
      ∧ (sweepVouchers d l c).account.conditions = c.account.conditions
      ∧ (sweepVouchers d l c).account.metered = c.account.metered ∧ (sweepVouchers d l c).meter = c.meter
      ∧ (sweepVouchers d l c).switch = c.switch ∧ (sweepVouchers d l c).clock = c.clock
      ∧ (sweepVouchers d l c).store.arrivals = c.store.arrivals ∧ (sweepVouchers d l c).store.cursor = c.store.cursor
      ∧ (sweepVouchers d l c).exchange = c.exchange ∧ (sweepVouchers d l c).radio = c.radio
      ∧ (sweepVouchers d l c).channel = c.channel ∧ (sweepVouchers d l c).journal = c.journal
      ∧ (sweepVouchers d l c).keypad = c.keypad ∧ (sweepVouchers d l c).service = c.service := by
  induction l generalizing c with
  | nil => simp [sweepVouchers]
  | cons n l ih =>
    unfold sweepVouchers; repeat' split
    all_goals simp [ih]

@[simp] theorem stampReceipts_frame (d : Nat) (l : List Nat) (c : Controller) :
    (stampReceipts d l c).power = c.power ∧ (stampReceipts d l c).params = c.params
      ∧ (stampReceipts d l c).decommissioning = c.decommissioning ∧ (stampReceipts d l c).account.live = c.account.live
      ∧ (stampReceipts d l c).account.staged = c.account.staged ∧ (stampReceipts d l c).account.flight = c.account.flight
      ∧ (stampReceipts d l c).account.state = c.account.state
      ∧ (stampReceipts d l c).account.conditions = c.account.conditions
      ∧ (stampReceipts d l c).account.metered = c.account.metered ∧ (stampReceipts d l c).meter = c.meter
      ∧ (stampReceipts d l c).switch = c.switch ∧ (stampReceipts d l c).clock = c.clock
      ∧ (stampReceipts d l c).store.arrivals = c.store.arrivals ∧ (stampReceipts d l c).store.cursor = c.store.cursor
      ∧ (stampReceipts d l c).exchange = c.exchange ∧ (stampReceipts d l c).radio = c.radio
      ∧ (stampReceipts d l c).channel = c.channel ∧ (stampReceipts d l c).journal = c.journal
      ∧ (stampReceipts d l c).keypad = c.keypad ∧ (stampReceipts d l c).service = c.service := by
  induction l generalizing c with
  | nil => simp [stampReceipts]
  | cons n l ih =>
    unfold stampReceipts; repeat' split
    all_goals simp [ih]

@[simp] theorem ageReceipts_frame (d n : Nat) (l : List Nat) (c : Controller) :
    (ageReceipts d n l c).power = c.power ∧ (ageReceipts d n l c).params = c.params
      ∧ (ageReceipts d n l c).decommissioning = c.decommissioning ∧ (ageReceipts d n l c).account.live = c.account.live
      ∧ (ageReceipts d n l c).account.staged = c.account.staged ∧ (ageReceipts d n l c).account.flight = c.account.flight
      ∧ (ageReceipts d n l c).account.state = c.account.state
      ∧ (ageReceipts d n l c).account.conditions = c.account.conditions
      ∧ (ageReceipts d n l c).account.metered = c.account.metered ∧ (ageReceipts d n l c).meter = c.meter
      ∧ (ageReceipts d n l c).switch = c.switch ∧ (ageReceipts d n l c).clock = c.clock
      ∧ (ageReceipts d n l c).store.arrivals = c.store.arrivals ∧ (ageReceipts d n l c).store.cursor = c.store.cursor
      ∧ (ageReceipts d n l c).exchange = c.exchange ∧ (ageReceipts d n l c).radio = c.radio
      ∧ (ageReceipts d n l c).channel = c.channel ∧ (ageReceipts d n l c).journal = c.journal
      ∧ (ageReceipts d n l c).keypad = c.keypad ∧ (ageReceipts d n l c).service = c.service := by
  induction l generalizing c with
  | nil => simp [ageReceipts]
  | cons n l ih =>
    unfold ageReceipts; repeat' split
    all_goals simp [ih]

@[simp] theorem storeRollover_frame (d : Nat) (c : Controller) :
    (storeRollover d c).power = c.power ∧ (storeRollover d c).params = c.params
      ∧ (storeRollover d c).decommissioning = c.decommissioning ∧ (storeRollover d c).account.live = c.account.live
      ∧ (storeRollover d c).account.staged = c.account.staged ∧ (storeRollover d c).account.flight = c.account.flight
      ∧ (storeRollover d c).account.state = c.account.state
      ∧ (storeRollover d c).account.conditions = c.account.conditions
      ∧ (storeRollover d c).account.metered = c.account.metered ∧ (storeRollover d c).meter = c.meter
      ∧ (storeRollover d c).switch = c.switch ∧ (storeRollover d c).clock = c.clock
      ∧ (storeRollover d c).store.arrivals = c.store.arrivals ∧ (storeRollover d c).store.cursor = c.store.cursor
      ∧ (storeRollover d c).exchange = c.exchange ∧ (storeRollover d c).radio = c.radio
      ∧ (storeRollover d c).channel = c.channel ∧ (storeRollover d c).journal = c.journal
      ∧ (storeRollover d c).keypad = c.keypad ∧ (storeRollover d c).service = c.service := by
  unfold storeRollover; repeat' split
  all_goals simp

/-! ### Receipts.lean -/

@[simp] theorem requestIfReserveReached_frame (c : Controller) :
    (requestIfReserveReached c).power = c.power ∧ (requestIfReserveReached c).params = c.params
      ∧ (requestIfReserveReached c).decommissioning = c.decommissioning
      ∧ (requestIfReserveReached c).account.metered = c.account.metered
      ∧ (requestIfReserveReached c).meter.mode = c.meter.mode
      ∧ (requestIfReserveReached c).meter.request = c.meter.request
      ∧ (requestIfReserveReached c).meter.chargeRem = c.meter.chargeRem
      ∧ (requestIfReserveReached c).meter.lifetimeRem = c.meter.lifetimeRem
      ∧ (requestIfReserveReached c).meter.lastGood = c.meter.lastGood
      ∧ (requestIfReserveReached c).meter.misses = c.meter.misses ∧ (requestIfReserveReached c).meter.band = c.meter.band
      ∧ (requestIfReserveReached c).meter.lowRun = c.meter.lowRun
      ∧ (requestIfReserveReached c).meter.recoveryRun = c.meter.recoveryRun
      ∧ (requestIfReserveReached c).switch = c.switch ∧ (requestIfReserveReached c).clock = c.clock
      ∧ (requestIfReserveReached c).store = c.store ∧ (requestIfReserveReached c).exchange = c.exchange
      ∧ (requestIfReserveReached c).radio = c.radio ∧ (requestIfReserveReached c).channel = c.channel
      ∧ (requestIfReserveReached c).journal.block = c.journal.block
      ∧ (requestIfReserveReached c).journal.commissioning = c.journal.commissioning
      ∧ (requestIfReserveReached c).keypad.entry = c.keypad.entry
      ∧ (requestIfReserveReached c).keypad.buffer = c.keypad.buffer
      ∧ (requestIfReserveReached c).keypad.evaluation = c.keypad.evaluation
      ∧ (requestIfReserveReached c).service = c.service := by
  unfold requestIfReserveReached; repeat' split
  all_goals simp

@[simp] theorem makeReceipt_frame (o : ReceiptOutcome) (n : Nat) (u : Bool) (c : Controller) :
    (makeReceipt o n u c).power = c.power ∧ (makeReceipt o n u c).params = c.params
      ∧ (makeReceipt o n u c).decommissioning = c.decommissioning
      ∧ (makeReceipt o n u c).account.metered = c.account.metered ∧ (makeReceipt o n u c).meter.mode = c.meter.mode
      ∧ (makeReceipt o n u c).meter.request = c.meter.request ∧ (makeReceipt o n u c).meter.chargeRem = c.meter.chargeRem
      ∧ (makeReceipt o n u c).meter.lifetimeRem = c.meter.lifetimeRem
      ∧ (makeReceipt o n u c).meter.lastGood = c.meter.lastGood ∧ (makeReceipt o n u c).meter.misses = c.meter.misses
      ∧ (makeReceipt o n u c).meter.band = c.meter.band ∧ (makeReceipt o n u c).meter.lowRun = c.meter.lowRun
      ∧ (makeReceipt o n u c).meter.recoveryRun = c.meter.recoveryRun ∧ (makeReceipt o n u c).switch = c.switch
      ∧ (makeReceipt o n u c).clock = c.clock ∧ (makeReceipt o n u c).store.cursor = c.store.cursor
      ∧ (makeReceipt o n u c).exchange = c.exchange ∧ (makeReceipt o n u c).radio = c.radio
      ∧ (makeReceipt o n u c).channel = c.channel ∧ (makeReceipt o n u c).journal.block = c.journal.block
      ∧ (makeReceipt o n u c).journal.commissioning = c.journal.commissioning
      ∧ (makeReceipt o n u c).keypad.entry = c.keypad.entry ∧ (makeReceipt o n u c).keypad.buffer = c.keypad.buffer
      ∧ (makeReceipt o n u c).keypad.evaluation = c.keypad.evaluation ∧ (makeReceipt o n u c).service = c.service := by
  simp [makeReceipt]

@[simp] theorem reportingStep_frame (c : Controller) :
    (reportingStep c).power = c.power ∧ (reportingStep c).params = c.params
      ∧ (reportingStep c).decommissioning = c.decommissioning ∧ (reportingStep c).account.live = c.account.live
      ∧ (reportingStep c).account.staged = c.account.staged ∧ (reportingStep c).account.flight = c.account.flight
      ∧ (reportingStep c).account.state = c.account.state ∧ (reportingStep c).account.pendingOwn = c.account.pendingOwn
      ∧ (reportingStep c).account.metered = c.account.metered ∧ (reportingStep c).meter = c.meter
      ∧ (reportingStep c).switch = c.switch ∧ (reportingStep c).clock = c.clock ∧ (reportingStep c).store = c.store
      ∧ (reportingStep c).exchange = c.exchange ∧ (reportingStep c).radio.active = c.radio.active
      ∧ (reportingStep c).radio.rx = c.radio.rx ∧ (reportingStep c).radio.reception = c.radio.reception
      ∧ (reportingStep c).radio.onAir = c.radio.onAir ∧ (reportingStep c).channel = c.channel
      ∧ (reportingStep c).journal = c.journal ∧ (reportingStep c).keypad = c.keypad
      ∧ (reportingStep c).service = c.service ∧ (reportingStep c).inTransit = c.inTransit
      ∧ (reportingStep c).draws = c.draws := by
  exact ⟨rfl, rfl, rfl, rfl, rfl, rfl, rfl, rfl, rfl, rfl, rfl, rfl, rfl, rfl, rfl, rfl, rfl, rfl, rfl, rfl, rfl, rfl, rfl, rfl⟩

@[simp] theorem makeStatus_frame (c : Controller) :
    (makeStatus c).power = c.power ∧ (makeStatus c).params = c.params ∧ (makeStatus c).decommissioning = c.decommissioning
      ∧ (makeStatus c).account.metered = c.account.metered ∧ (makeStatus c).meter.mode = c.meter.mode
      ∧ (makeStatus c).meter.request = c.meter.request ∧ (makeStatus c).meter.chargeRem = c.meter.chargeRem
      ∧ (makeStatus c).meter.lifetimeRem = c.meter.lifetimeRem ∧ (makeStatus c).meter.lastGood = c.meter.lastGood
      ∧ (makeStatus c).meter.misses = c.meter.misses ∧ (makeStatus c).meter.band = c.meter.band
      ∧ (makeStatus c).meter.lowRun = c.meter.lowRun ∧ (makeStatus c).meter.recoveryRun = c.meter.recoveryRun
      ∧ (makeStatus c).switch = c.switch ∧ (makeStatus c).clock = c.clock ∧ (makeStatus c).store.cursor = c.store.cursor
      ∧ (makeStatus c).exchange = c.exchange ∧ (makeStatus c).radio.active = c.radio.active
      ∧ (makeStatus c).radio.rx = c.radio.rx ∧ (makeStatus c).radio.reception = c.radio.reception
      ∧ (makeStatus c).radio.onAir = c.radio.onAir ∧ (makeStatus c).channel = c.channel
      ∧ (makeStatus c).journal.block = c.journal.block ∧ (makeStatus c).journal.commissioning = c.journal.commissioning
      ∧ (makeStatus c).keypad.entry = c.keypad.entry ∧ (makeStatus c).keypad.buffer = c.keypad.buffer
      ∧ (makeStatus c).keypad.evaluation = c.keypad.evaluation ∧ (makeStatus c).service = c.service := by
  unfold makeStatus; dsimp only; repeat' split
  all_goals simp

@[simp] theorem dueStatus_frame (c : Controller) :
    (dueStatus c).power = c.power ∧ (dueStatus c).params = c.params ∧ (dueStatus c).decommissioning = c.decommissioning
      ∧ (dueStatus c).account.metered = c.account.metered ∧ (dueStatus c).meter.mode = c.meter.mode
      ∧ (dueStatus c).meter.request = c.meter.request ∧ (dueStatus c).meter.chargeRem = c.meter.chargeRem
      ∧ (dueStatus c).meter.lifetimeRem = c.meter.lifetimeRem ∧ (dueStatus c).meter.lastGood = c.meter.lastGood
      ∧ (dueStatus c).meter.misses = c.meter.misses ∧ (dueStatus c).meter.band = c.meter.band
      ∧ (dueStatus c).meter.lowRun = c.meter.lowRun ∧ (dueStatus c).meter.recoveryRun = c.meter.recoveryRun
      ∧ (dueStatus c).switch = c.switch ∧ (dueStatus c).clock = c.clock ∧ (dueStatus c).store.cursor = c.store.cursor
      ∧ (dueStatus c).exchange = c.exchange ∧ (dueStatus c).radio.active = c.radio.active
      ∧ (dueStatus c).radio.rx = c.radio.rx ∧ (dueStatus c).radio.reception = c.radio.reception
      ∧ (dueStatus c).radio.onAir = c.radio.onAir ∧ (dueStatus c).channel = c.channel
      ∧ (dueStatus c).journal.block = c.journal.block ∧ (dueStatus c).journal.commissioning = c.journal.commissioning
      ∧ (dueStatus c).keypad.entry = c.keypad.entry ∧ (dueStatus c).keypad.buffer = c.keypad.buffer
      ∧ (dueStatus c).keypad.evaluation = c.keypad.evaluation ∧ (dueStatus c).service = c.service := by
  unfold dueStatus whenReceipt oweStatus; repeat' split
  all_goals simp

@[simp] theorem raise_frame (x : Condition) (c : Controller) :
    (raise x c).power = c.power ∧ (raise x c).params = c.params ∧ (raise x c).decommissioning = c.decommissioning
      ∧ (raise x c).account.metered = c.account.metered ∧ (raise x c).meter.mode = c.meter.mode
      ∧ (raise x c).meter.request = c.meter.request ∧ (raise x c).meter.chargeRem = c.meter.chargeRem
      ∧ (raise x c).meter.lifetimeRem = c.meter.lifetimeRem ∧ (raise x c).meter.lastGood = c.meter.lastGood
      ∧ (raise x c).meter.misses = c.meter.misses ∧ (raise x c).meter.band = c.meter.band
      ∧ (raise x c).meter.lowRun = c.meter.lowRun ∧ (raise x c).meter.recoveryRun = c.meter.recoveryRun
      ∧ (raise x c).switch = c.switch ∧ (raise x c).clock = c.clock ∧ (raise x c).store.cursor = c.store.cursor
      ∧ (raise x c).exchange = c.exchange ∧ (raise x c).radio.active = c.radio.active ∧ (raise x c).radio.rx = c.radio.rx
      ∧ (raise x c).radio.reception = c.radio.reception ∧ (raise x c).radio.onAir = c.radio.onAir
      ∧ (raise x c).channel = c.channel ∧ (raise x c).journal.block = c.journal.block
      ∧ (raise x c).journal.commissioning = c.journal.commissioning ∧ (raise x c).keypad.entry = c.keypad.entry
      ∧ (raise x c).keypad.buffer = c.keypad.buffer ∧ (raise x c).keypad.evaluation = c.keypad.evaluation
      ∧ (raise x c).service = c.service := by
  unfold raise; dsimp only; repeat' split
  all_goals simp

@[simp] theorem releaseStatus_frame (c : Controller) :
    (releaseStatus c).power = c.power ∧ (releaseStatus c).params = c.params
      ∧ (releaseStatus c).decommissioning = c.decommissioning ∧ (releaseStatus c).account.metered = c.account.metered
      ∧ (releaseStatus c).meter.mode = c.meter.mode ∧ (releaseStatus c).meter.request = c.meter.request
      ∧ (releaseStatus c).meter.chargeRem = c.meter.chargeRem ∧ (releaseStatus c).meter.lifetimeRem = c.meter.lifetimeRem
      ∧ (releaseStatus c).meter.lastGood = c.meter.lastGood ∧ (releaseStatus c).meter.misses = c.meter.misses
      ∧ (releaseStatus c).meter.band = c.meter.band ∧ (releaseStatus c).meter.lowRun = c.meter.lowRun
      ∧ (releaseStatus c).meter.recoveryRun = c.meter.recoveryRun ∧ (releaseStatus c).switch = c.switch
      ∧ (releaseStatus c).clock = c.clock ∧ (releaseStatus c).store.cursor = c.store.cursor
      ∧ (releaseStatus c).exchange = c.exchange ∧ (releaseStatus c).radio.active = c.radio.active
      ∧ (releaseStatus c).radio.rx = c.radio.rx ∧ (releaseStatus c).radio.reception = c.radio.reception
      ∧ (releaseStatus c).radio.onAir = c.radio.onAir ∧ (releaseStatus c).channel = c.channel
      ∧ (releaseStatus c).journal.block = c.journal.block
      ∧ (releaseStatus c).journal.commissioning = c.journal.commissioning
      ∧ (releaseStatus c).keypad.entry = c.keypad.entry ∧ (releaseStatus c).keypad.buffer = c.keypad.buffer
      ∧ (releaseStatus c).keypad.evaluation = c.keypad.evaluation ∧ (releaseStatus c).service = c.service := by
  unfold releaseStatus whenReceipt; dsimp only [id]; repeat' split
  all_goals simp

@[simp] theorem makeOwed_frame (n : Nat) (c : Controller) :
    (makeOwed n c).power = c.power ∧ (makeOwed n c).params = c.params ∧ (makeOwed n c).decommissioning = c.decommissioning
      ∧ (makeOwed n c).account.metered = c.account.metered ∧ (makeOwed n c).meter.mode = c.meter.mode
      ∧ (makeOwed n c).meter.request = c.meter.request ∧ (makeOwed n c).meter.chargeRem = c.meter.chargeRem
      ∧ (makeOwed n c).meter.lifetimeRem = c.meter.lifetimeRem ∧ (makeOwed n c).meter.lastGood = c.meter.lastGood
      ∧ (makeOwed n c).meter.misses = c.meter.misses ∧ (makeOwed n c).meter.band = c.meter.band
      ∧ (makeOwed n c).meter.lowRun = c.meter.lowRun ∧ (makeOwed n c).meter.recoveryRun = c.meter.recoveryRun
      ∧ (makeOwed n c).switch = c.switch ∧ (makeOwed n c).clock = c.clock ∧ (makeOwed n c).store.cursor = c.store.cursor
      ∧ (makeOwed n c).exchange = c.exchange ∧ (makeOwed n c).radio = c.radio ∧ (makeOwed n c).channel = c.channel
      ∧ (makeOwed n c).journal.block = c.journal.block ∧ (makeOwed n c).journal.commissioning = c.journal.commissioning
      ∧ (makeOwed n c).keypad.entry = c.keypad.entry ∧ (makeOwed n c).keypad.buffer = c.keypad.buffer
      ∧ (makeOwed n c).keypad.evaluation = c.keypad.evaluation ∧ (makeOwed n c).service = c.service := by
  induction n generalizing c with
  | zero => simp [makeOwed]
  | succ n ih =>
    unfold makeOwed whenReceipt; dsimp only [id]; repeat' split
    all_goals simp [ih]

@[simp] theorem goodCommit_frame (n : Nat) (c : Controller) :
    (goodCommit n c).power = c.power ∧ (goodCommit n c).params = c.params
      ∧ (goodCommit n c).decommissioning = c.decommissioning ∧ (goodCommit n c).account.flight = c.account.flight
      ∧ (goodCommit n c).account.state = c.account.state ∧ (goodCommit n c).account.pendingOwn = c.account.pendingOwn
      ∧ (goodCommit n c).meter = c.meter ∧ (goodCommit n c).switch = c.switch ∧ (goodCommit n c).clock = c.clock
      ∧ (goodCommit n c).store = c.store ∧ (goodCommit n c).exchange = c.exchange ∧ (goodCommit n c).radio = c.radio
      ∧ (goodCommit n c).channel = c.channel ∧ (goodCommit n c).journal = c.journal ∧ (goodCommit n c).keypad = c.keypad
      ∧ (goodCommit n c).service = c.service ∧ (goodCommit n c).inTransit = c.inTransit := by
  simp [goodCommit]

@[simp] theorem settleOwed_frame (c : Controller) :
    (settleOwed c).power = c.power ∧ (settleOwed c).params = c.params ∧ (settleOwed c).decommissioning = c.decommissioning
      ∧ (settleOwed c).account.metered = c.account.metered ∧ (settleOwed c).meter.mode = c.meter.mode
      ∧ (settleOwed c).meter.request = c.meter.request ∧ (settleOwed c).meter.chargeRem = c.meter.chargeRem
      ∧ (settleOwed c).meter.lifetimeRem = c.meter.lifetimeRem ∧ (settleOwed c).meter.lastGood = c.meter.lastGood
      ∧ (settleOwed c).meter.misses = c.meter.misses ∧ (settleOwed c).meter.band = c.meter.band
      ∧ (settleOwed c).meter.lowRun = c.meter.lowRun ∧ (settleOwed c).meter.recoveryRun = c.meter.recoveryRun
      ∧ (settleOwed c).switch = c.switch ∧ (settleOwed c).clock = c.clock ∧ (settleOwed c).store.cursor = c.store.cursor
      ∧ (settleOwed c).exchange = c.exchange ∧ (settleOwed c).radio.active = c.radio.active
      ∧ (settleOwed c).radio.rx = c.radio.rx ∧ (settleOwed c).radio.reception = c.radio.reception
      ∧ (settleOwed c).radio.onAir = c.radio.onAir ∧ (settleOwed c).channel = c.channel
      ∧ (settleOwed c).journal.block = c.journal.block ∧ (settleOwed c).journal.commissioning = c.journal.commissioning
      ∧ (settleOwed c).keypad.entry = c.keypad.entry ∧ (settleOwed c).keypad.buffer = c.keypad.buffer
      ∧ (settleOwed c).keypad.evaluation = c.keypad.evaluation ∧ (settleOwed c).service = c.service := by
  simp [settleOwed]

/-! ### Account.lean -/

@[simp] theorem hold_frame (e : PendingEntry) (b : Bool) (c : Controller) :
    (hold e b c).power = c.power ∧ (hold e b c).params = c.params ∧ (hold e b c).decommissioning = c.decommissioning
      ∧ (hold e b c).account.live = c.account.live ∧ (hold e b c).account.staged = c.account.staged
      ∧ (hold e b c).account.flight = c.account.flight ∧ (hold e b c).account.state = c.account.state
      ∧ (hold e b c).account.conditions = c.account.conditions ∧ (hold e b c).account.metered = c.account.metered
      ∧ (hold e b c).meter = c.meter ∧ (hold e b c).switch = c.switch ∧ (hold e b c).clock = c.clock
      ∧ (hold e b c).store = c.store ∧ (hold e b c).exchange = c.exchange ∧ (hold e b c).radio = c.radio
      ∧ (hold e b c).channel = c.channel ∧ (hold e b c).journal = c.journal ∧ (hold e b c).keypad = c.keypad
      ∧ (hold e b c).service = c.service := by
  unfold hold; repeat' split
  all_goals simp

@[simp] theorem keepBack_frame (e : PendingEntry) (b : Bool) (n : Option Nat) (c : Controller) :
    (keepBack e b n c).power = c.power ∧ (keepBack e b n c).params = c.params
      ∧ (keepBack e b n c).decommissioning = c.decommissioning ∧ (keepBack e b n c).account.live = c.account.live
      ∧ (keepBack e b n c).account.staged = c.account.staged ∧ (keepBack e b n c).account.flight = c.account.flight
      ∧ (keepBack e b n c).account.state = c.account.state ∧ (keepBack e b n c).account.conditions = c.account.conditions
      ∧ (keepBack e b n c).account.metered = c.account.metered ∧ (keepBack e b n c).meter = c.meter
      ∧ (keepBack e b n c).switch = c.switch ∧ (keepBack e b n c).clock = c.clock ∧ (keepBack e b n c).store = c.store
      ∧ (keepBack e b n c).exchange = c.exchange ∧ (keepBack e b n c).radio = c.radio
      ∧ (keepBack e b n c).channel = c.channel ∧ (keepBack e b n c).journal = c.journal
      ∧ (keepBack e b n c).keypad = c.keypad ∧ (keepBack e b n c).service = c.service := by
  unfold keepBack; repeat' split
  all_goals simp

@[simp] theorem nonFinal_frame (o : ReceiptOutcome) (u : Bool) (e : PendingEntry) (b : Bool) (n : Option Nat) (c : Controller) :
    (nonFinal o u e b n c).power = c.power ∧ (nonFinal o u e b n c).params = c.params
      ∧ (nonFinal o u e b n c).decommissioning = c.decommissioning
      ∧ (nonFinal o u e b n c).account.metered = c.account.metered ∧ (nonFinal o u e b n c).meter.mode = c.meter.mode
      ∧ (nonFinal o u e b n c).meter.request = c.meter.request
      ∧ (nonFinal o u e b n c).meter.chargeRem = c.meter.chargeRem
      ∧ (nonFinal o u e b n c).meter.lifetimeRem = c.meter.lifetimeRem
      ∧ (nonFinal o u e b n c).meter.lastGood = c.meter.lastGood ∧ (nonFinal o u e b n c).meter.misses = c.meter.misses
      ∧ (nonFinal o u e b n c).meter.band = c.meter.band ∧ (nonFinal o u e b n c).meter.lowRun = c.meter.lowRun
      ∧ (nonFinal o u e b n c).meter.recoveryRun = c.meter.recoveryRun ∧ (nonFinal o u e b n c).switch = c.switch
      ∧ (nonFinal o u e b n c).clock = c.clock ∧ (nonFinal o u e b n c).store.cursor = c.store.cursor
      ∧ (nonFinal o u e b n c).exchange = c.exchange ∧ (nonFinal o u e b n c).radio = c.radio
      ∧ (nonFinal o u e b n c).channel = c.channel ∧ (nonFinal o u e b n c).journal.block = c.journal.block
      ∧ (nonFinal o u e b n c).journal.commissioning = c.journal.commissioning
      ∧ (nonFinal o u e b n c).keypad.entry = c.keypad.entry ∧ (nonFinal o u e b n c).keypad.buffer = c.keypad.buffer
      ∧ (nonFinal o u e b n c).keypad.evaluation = c.keypad.evaluation ∧ (nonFinal o u e b n c).service = c.service := by
  unfold nonFinal; repeat' split
  all_goals simp

@[simp] theorem settleFinal_frame (o : ReceiptOutcome) (u : Bool) (e : PendingEntry) (b : Bool) (c : Controller) :
    (settleFinal o u e b c).power = c.power ∧ (settleFinal o u e b c).params = c.params
      ∧ (settleFinal o u e b c).decommissioning = c.decommissioning
      ∧ (settleFinal o u e b c).account.metered = c.account.metered ∧ (settleFinal o u e b c).meter.mode = c.meter.mode
      ∧ (settleFinal o u e b c).meter.request = c.meter.request
      ∧ (settleFinal o u e b c).meter.chargeRem = c.meter.chargeRem
      ∧ (settleFinal o u e b c).meter.lifetimeRem = c.meter.lifetimeRem
      ∧ (settleFinal o u e b c).meter.lastGood = c.meter.lastGood ∧ (settleFinal o u e b c).meter.misses = c.meter.misses
      ∧ (settleFinal o u e b c).meter.band = c.meter.band ∧ (settleFinal o u e b c).meter.lowRun = c.meter.lowRun
      ∧ (settleFinal o u e b c).meter.recoveryRun = c.meter.recoveryRun ∧ (settleFinal o u e b c).switch = c.switch
      ∧ (settleFinal o u e b c).clock = c.clock ∧ (settleFinal o u e b c).store.cursor = c.store.cursor
      ∧ (settleFinal o u e b c).exchange = c.exchange ∧ (settleFinal o u e b c).radio = c.radio
      ∧ (settleFinal o u e b c).channel = c.channel ∧ (settleFinal o u e b c).journal.block = c.journal.block
      ∧ (settleFinal o u e b c).journal.commissioning = c.journal.commissioning
      ∧ (settleFinal o u e b c).keypad.entry = c.keypad.entry ∧ (settleFinal o u e b c).keypad.buffer = c.keypad.buffer
      ∧ (settleFinal o u e b c).keypad.evaluation = c.keypad.evaluation ∧ (settleFinal o u e b c).service = c.service := by
  unfold settleFinal whenReceipt; dsimp only; repeat' split
  all_goals simp

@[simp] theorem refuseFinally_frame (o : ReceiptOutcome) (e : PendingEntry) (b : Bool) (n : Option Nat) (c : Controller) :
    (refuseFinally o e b n c).power = c.power ∧ (refuseFinally o e b n c).params = c.params
      ∧ (refuseFinally o e b n c).decommissioning = c.decommissioning
      ∧ (refuseFinally o e b n c).account.metered = c.account.metered
      ∧ (refuseFinally o e b n c).meter.mode = c.meter.mode ∧ (refuseFinally o e b n c).meter.request = c.meter.request
      ∧ (refuseFinally o e b n c).meter.chargeRem = c.meter.chargeRem
      ∧ (refuseFinally o e b n c).meter.lifetimeRem = c.meter.lifetimeRem
      ∧ (refuseFinally o e b n c).meter.lastGood = c.meter.lastGood
      ∧ (refuseFinally o e b n c).meter.misses = c.meter.misses ∧ (refuseFinally o e b n c).meter.band = c.meter.band
      ∧ (refuseFinally o e b n c).meter.lowRun = c.meter.lowRun
      ∧ (refuseFinally o e b n c).meter.recoveryRun = c.meter.recoveryRun ∧ (refuseFinally o e b n c).switch = c.switch
      ∧ (refuseFinally o e b n c).clock = c.clock ∧ (refuseFinally o e b n c).store.cursor = c.store.cursor
      ∧ (refuseFinally o e b n c).exchange = c.exchange ∧ (refuseFinally o e b n c).radio.active = c.radio.active
      ∧ (refuseFinally o e b n c).radio.rx = c.radio.rx ∧ (refuseFinally o e b n c).radio.reception = c.radio.reception
      ∧ (refuseFinally o e b n c).radio.onAir = c.radio.onAir ∧ (refuseFinally o e b n c).channel = c.channel
      ∧ (refuseFinally o e b n c).journal.block = c.journal.block
      ∧ (refuseFinally o e b n c).journal.commissioning = c.journal.commissioning
      ∧ (refuseFinally o e b n c).keypad.entry = c.keypad.entry
      ∧ (refuseFinally o e b n c).keypad.buffer = c.keypad.buffer
      ∧ (refuseFinally o e b n c).keypad.evaluation = c.keypad.evaluation ∧ (refuseFinally o e b n c).service = c.service := by
  simp [refuseFinally]

@[simp] theorem stage_frame (u : Bool) (e : PendingEntry) (b : Bool) (n : Option Nat) (c : Controller) :
    (stage u e b n c).power = c.power ∧ (stage u e b n c).params = c.params
      ∧ (stage u e b n c).decommissioning = c.decommissioning ∧ (stage u e b n c).account.metered = c.account.metered
      ∧ (stage u e b n c).meter.mode = c.meter.mode ∧ (stage u e b n c).meter.request = c.meter.request
      ∧ (stage u e b n c).meter.chargeRem = c.meter.chargeRem ∧ (stage u e b n c).meter.lifetimeRem = c.meter.lifetimeRem
      ∧ (stage u e b n c).meter.lastGood = c.meter.lastGood ∧ (stage u e b n c).meter.misses = c.meter.misses
      ∧ (stage u e b n c).meter.band = c.meter.band ∧ (stage u e b n c).meter.lowRun = c.meter.lowRun
      ∧ (stage u e b n c).meter.recoveryRun = c.meter.recoveryRun ∧ (stage u e b n c).switch = c.switch
      ∧ (stage u e b n c).clock = c.clock ∧ (stage u e b n c).store = c.store ∧ (stage u e b n c).exchange = c.exchange
      ∧ (stage u e b n c).radio = c.radio ∧ (stage u e b n c).channel = c.channel
      ∧ (stage u e b n c).journal.block = c.journal.block
      ∧ (stage u e b n c).journal.commissioning = c.journal.commissioning
      ∧ (stage u e b n c).keypad.entry = c.keypad.entry ∧ (stage u e b n c).keypad.buffer = c.keypad.buffer
      ∧ (stage u e b n c).keypad.evaluation = c.keypad.evaluation ∧ (stage u e b n c).service = c.service := by
  unfold stage; dsimp only; repeat' split
  all_goals simp

@[simp] theorem checkUseByAndRoom_frame (e : PendingEntry) (b : Bool) (n : Option Nat) (c : Controller) :
    (checkUseByAndRoom e b n c).power = c.power ∧ (checkUseByAndRoom e b n c).params = c.params
      ∧ (checkUseByAndRoom e b n c).decommissioning = c.decommissioning
      ∧ (checkUseByAndRoom e b n c).account.metered = c.account.metered
      ∧ (checkUseByAndRoom e b n c).meter.mode = c.meter.mode
      ∧ (checkUseByAndRoom e b n c).meter.request = c.meter.request
      ∧ (checkUseByAndRoom e b n c).meter.chargeRem = c.meter.chargeRem
      ∧ (checkUseByAndRoom e b n c).meter.lifetimeRem = c.meter.lifetimeRem
      ∧ (checkUseByAndRoom e b n c).meter.lastGood = c.meter.lastGood
      ∧ (checkUseByAndRoom e b n c).meter.misses = c.meter.misses ∧ (checkUseByAndRoom e b n c).meter.band = c.meter.band
      ∧ (checkUseByAndRoom e b n c).meter.lowRun = c.meter.lowRun
      ∧ (checkUseByAndRoom e b n c).meter.recoveryRun = c.meter.recoveryRun
      ∧ (checkUseByAndRoom e b n c).switch = c.switch ∧ (checkUseByAndRoom e b n c).clock = c.clock
      ∧ (checkUseByAndRoom e b n c).store.cursor = c.store.cursor ∧ (checkUseByAndRoom e b n c).exchange = c.exchange
      ∧ (checkUseByAndRoom e b n c).radio.active = c.radio.active ∧ (checkUseByAndRoom e b n c).radio.rx = c.radio.rx
      ∧ (checkUseByAndRoom e b n c).radio.reception = c.radio.reception
      ∧ (checkUseByAndRoom e b n c).radio.onAir = c.radio.onAir ∧ (checkUseByAndRoom e b n c).channel = c.channel
      ∧ (checkUseByAndRoom e b n c).journal.block = c.journal.block
      ∧ (checkUseByAndRoom e b n c).journal.commissioning = c.journal.commissioning
      ∧ (checkUseByAndRoom e b n c).keypad.entry = c.keypad.entry
      ∧ (checkUseByAndRoom e b n c).keypad.buffer = c.keypad.buffer
      ∧ (checkUseByAndRoom e b n c).keypad.evaluation = c.keypad.evaluation
      ∧ (checkUseByAndRoom e b n c).service = c.service := by
  unfold checkUseByAndRoom; dsimp only; repeat' split
  all_goals simp

@[simp] theorem foundDuplicate_frame (e : PendingEntry) (b : Bool) (n : Option Nat) (c : Controller) :
    (foundDuplicate e b n c).power = c.power ∧ (foundDuplicate e b n c).params = c.params
      ∧ (foundDuplicate e b n c).decommissioning = c.decommissioning
      ∧ (foundDuplicate e b n c).account.live = c.account.live
      ∧ (foundDuplicate e b n c).account.staged = c.account.staged
      ∧ (foundDuplicate e b n c).account.flight = c.account.flight
      ∧ (foundDuplicate e b n c).account.state = c.account.state
      ∧ (foundDuplicate e b n c).account.conditions = c.account.conditions
      ∧ (foundDuplicate e b n c).account.metered = c.account.metered ∧ (foundDuplicate e b n c).meter = c.meter
      ∧ (foundDuplicate e b n c).switch = c.switch ∧ (foundDuplicate e b n c).clock = c.clock
      ∧ (foundDuplicate e b n c).store = c.store ∧ (foundDuplicate e b n c).exchange = c.exchange
      ∧ (foundDuplicate e b n c).radio = c.radio ∧ (foundDuplicate e b n c).channel = c.channel
      ∧ (foundDuplicate e b n c).journal = c.journal ∧ (foundDuplicate e b n c).check = c.check
      ∧ (foundDuplicate e b n c).keypad = c.keypad ∧ (foundDuplicate e b n c).service = c.service
      ∧ (foundDuplicate e b n c).draws = c.draws := by
  unfold foundDuplicate; repeat' split
  all_goals simp

@[simp] theorem checkSerial_frame (e : PendingEntry) (b : Bool) (n : Option Nat) (c : Controller) :
    (checkSerial e b n c).power = c.power ∧ (checkSerial e b n c).params = c.params
      ∧ (checkSerial e b n c).decommissioning = c.decommissioning
      ∧ (checkSerial e b n c).account.metered = c.account.metered ∧ (checkSerial e b n c).meter.mode = c.meter.mode
      ∧ (checkSerial e b n c).meter.request = c.meter.request ∧ (checkSerial e b n c).meter.chargeRem = c.meter.chargeRem
      ∧ (checkSerial e b n c).meter.lifetimeRem = c.meter.lifetimeRem
      ∧ (checkSerial e b n c).meter.lastGood = c.meter.lastGood ∧ (checkSerial e b n c).meter.misses = c.meter.misses
      ∧ (checkSerial e b n c).meter.band = c.meter.band ∧ (checkSerial e b n c).meter.lowRun = c.meter.lowRun
      ∧ (checkSerial e b n c).meter.recoveryRun = c.meter.recoveryRun ∧ (checkSerial e b n c).switch = c.switch
      ∧ (checkSerial e b n c).clock = c.clock ∧ (checkSerial e b n c).store.cursor = c.store.cursor
      ∧ (checkSerial e b n c).exchange = c.exchange ∧ (checkSerial e b n c).radio.active = c.radio.active
      ∧ (checkSerial e b n c).radio.rx = c.radio.rx ∧ (checkSerial e b n c).radio.reception = c.radio.reception
      ∧ (checkSerial e b n c).radio.onAir = c.radio.onAir ∧ (checkSerial e b n c).channel = c.channel
      ∧ (checkSerial e b n c).journal.block = c.journal.block
      ∧ (checkSerial e b n c).journal.commissioning = c.journal.commissioning
      ∧ (checkSerial e b n c).keypad.entry = c.keypad.entry ∧ (checkSerial e b n c).keypad.buffer = c.keypad.buffer
      ∧ (checkSerial e b n c).keypad.evaluation = c.keypad.evaluation ∧ (checkSerial e b n c).service = c.service := by
  unfold checkSerial; repeat' split
  all_goals simp

@[simp] theorem checkVoucher_frame (e : PendingEntry) (b : Bool) (n : Option Nat) (c : Controller) :
    (checkVoucher e b n c).power = c.power ∧ (checkVoucher e b n c).params = c.params
      ∧ (checkVoucher e b n c).decommissioning = c.decommissioning
      ∧ (checkVoucher e b n c).account.metered = c.account.metered ∧ (checkVoucher e b n c).meter.mode = c.meter.mode
      ∧ (checkVoucher e b n c).meter.request = c.meter.request ∧ (checkVoucher e b n c).meter.chargeRem = c.meter.chargeRem
      ∧ (checkVoucher e b n c).meter.lifetimeRem = c.meter.lifetimeRem
      ∧ (checkVoucher e b n c).meter.lastGood = c.meter.lastGood ∧ (checkVoucher e b n c).meter.misses = c.meter.misses
      ∧ (checkVoucher e b n c).meter.band = c.meter.band ∧ (checkVoucher e b n c).meter.lowRun = c.meter.lowRun
      ∧ (checkVoucher e b n c).meter.recoveryRun = c.meter.recoveryRun ∧ (checkVoucher e b n c).switch = c.switch
      ∧ (checkVoucher e b n c).clock = c.clock ∧ (checkVoucher e b n c).store.cursor = c.store.cursor
      ∧ (checkVoucher e b n c).exchange = c.exchange ∧ (checkVoucher e b n c).radio.active = c.radio.active
      ∧ (checkVoucher e b n c).radio.rx = c.radio.rx ∧ (checkVoucher e b n c).radio.reception = c.radio.reception
      ∧ (checkVoucher e b n c).radio.onAir = c.radio.onAir ∧ (checkVoucher e b n c).channel = c.channel
      ∧ (checkVoucher e b n c).journal.block = c.journal.block
      ∧ (checkVoucher e b n c).journal.commissioning = c.journal.commissioning
      ∧ (checkVoucher e b n c).keypad.entry = c.keypad.entry ∧ (checkVoucher e b n c).keypad.buffer = c.keypad.buffer
      ∧ (checkVoucher e b n c).keypad.evaluation = c.keypad.evaluation ∧ (checkVoucher e b n c).service = c.service := by
  unfold checkVoucher; repeat' split
  all_goals simp

@[simp] theorem examine_frame (e : PendingEntry) (b : Bool) (c : Controller) :
    (examine e b c).power = c.power ∧ (examine e b c).params = c.params
      ∧ (examine e b c).decommissioning = c.decommissioning ∧ (examine e b c).account.metered = c.account.metered
      ∧ (examine e b c).meter.mode = c.meter.mode ∧ (examine e b c).meter.request = c.meter.request
      ∧ (examine e b c).meter.chargeRem = c.meter.chargeRem ∧ (examine e b c).meter.lifetimeRem = c.meter.lifetimeRem
      ∧ (examine e b c).meter.lastGood = c.meter.lastGood ∧ (examine e b c).meter.misses = c.meter.misses
      ∧ (examine e b c).meter.band = c.meter.band ∧ (examine e b c).meter.lowRun = c.meter.lowRun
      ∧ (examine e b c).meter.recoveryRun = c.meter.recoveryRun ∧ (examine e b c).switch = c.switch
      ∧ (examine e b c).clock = c.clock ∧ (examine e b c).store.cursor = c.store.cursor
      ∧ (examine e b c).exchange = c.exchange ∧ (examine e b c).radio.active = c.radio.active
      ∧ (examine e b c).radio.rx = c.radio.rx ∧ (examine e b c).radio.reception = c.radio.reception
      ∧ (examine e b c).radio.onAir = c.radio.onAir ∧ (examine e b c).channel = c.channel
      ∧ (examine e b c).journal.block = c.journal.block ∧ (examine e b c).journal.commissioning = c.journal.commissioning
      ∧ (examine e b c).keypad.entry = c.keypad.entry ∧ (examine e b c).keypad.buffer = c.keypad.buffer
      ∧ (examine e b c).keypad.evaluation = c.keypad.evaluation ∧ (examine e b c).service = c.service := by
  unfold examine; dsimp only; repeat' split
  all_goals simp

@[simp] theorem runPasses_frame (n : Nat) (c : Controller) :
    (runPasses n c).power = c.power ∧ (runPasses n c).params = c.params
      ∧ (runPasses n c).decommissioning = c.decommissioning ∧ (runPasses n c).account.metered = c.account.metered
      ∧ (runPasses n c).meter.mode = c.meter.mode ∧ (runPasses n c).meter.request = c.meter.request
      ∧ (runPasses n c).meter.chargeRem = c.meter.chargeRem ∧ (runPasses n c).meter.lifetimeRem = c.meter.lifetimeRem
      ∧ (runPasses n c).meter.lastGood = c.meter.lastGood ∧ (runPasses n c).meter.misses = c.meter.misses
      ∧ (runPasses n c).meter.band = c.meter.band ∧ (runPasses n c).meter.lowRun = c.meter.lowRun
      ∧ (runPasses n c).meter.recoveryRun = c.meter.recoveryRun ∧ (runPasses n c).switch = c.switch
      ∧ (runPasses n c).clock = c.clock ∧ (runPasses n c).store.cursor = c.store.cursor
      ∧ (runPasses n c).exchange = c.exchange ∧ (runPasses n c).radio.active = c.radio.active
      ∧ (runPasses n c).radio.rx = c.radio.rx ∧ (runPasses n c).radio.reception = c.radio.reception
      ∧ (runPasses n c).radio.onAir = c.radio.onAir ∧ (runPasses n c).channel = c.channel
      ∧ (runPasses n c).journal.block = c.journal.block ∧ (runPasses n c).journal.commissioning = c.journal.commissioning
      ∧ (runPasses n c).keypad.entry = c.keypad.entry ∧ (runPasses n c).keypad.buffer = c.keypad.buffer
      ∧ (runPasses n c).keypad.evaluation = c.keypad.evaluation ∧ (runPasses n c).service = c.service := by
  induction n generalizing c with
  | zero => simp [runPasses]
  | succ n ih =>
    unfold runPasses; dsimp only; repeat' split
    all_goals simp [ih]

@[simp] theorem runDue_frame (c : Controller) :
    (runDue c).power = c.power ∧ (runDue c).params = c.params ∧ (runDue c).decommissioning = c.decommissioning
      ∧ (runDue c).account.metered = c.account.metered ∧ (runDue c).meter.mode = c.meter.mode
      ∧ (runDue c).meter.request = c.meter.request ∧ (runDue c).meter.chargeRem = c.meter.chargeRem
      ∧ (runDue c).meter.lifetimeRem = c.meter.lifetimeRem ∧ (runDue c).meter.lastGood = c.meter.lastGood
      ∧ (runDue c).meter.misses = c.meter.misses ∧ (runDue c).meter.band = c.meter.band
      ∧ (runDue c).meter.lowRun = c.meter.lowRun ∧ (runDue c).meter.recoveryRun = c.meter.recoveryRun
      ∧ (runDue c).switch = c.switch ∧ (runDue c).clock = c.clock ∧ (runDue c).store.cursor = c.store.cursor
      ∧ (runDue c).exchange = c.exchange ∧ (runDue c).radio.active = c.radio.active ∧ (runDue c).radio.rx = c.radio.rx
      ∧ (runDue c).radio.reception = c.radio.reception ∧ (runDue c).radio.onAir = c.radio.onAir
      ∧ (runDue c).channel = c.channel ∧ (runDue c).journal.block = c.journal.block
      ∧ (runDue c).journal.commissioning = c.journal.commissioning ∧ (runDue c).keypad.entry = c.keypad.entry
      ∧ (runDue c).keypad.buffer = c.keypad.buffer ∧ (runDue c).keypad.evaluation = c.keypad.evaluation
      ∧ (runDue c).service = c.service := by
  simp [runDue]

@[simp] theorem deliver_frame (v : Voucher) (n : Option Nat) (c : Controller) :
    (deliver v n c).power = c.power ∧ (deliver v n c).params = c.params
      ∧ (deliver v n c).decommissioning = c.decommissioning ∧ (deliver v n c).account.metered = c.account.metered
      ∧ (deliver v n c).meter.mode = c.meter.mode ∧ (deliver v n c).meter.request = c.meter.request
      ∧ (deliver v n c).meter.chargeRem = c.meter.chargeRem ∧ (deliver v n c).meter.lifetimeRem = c.meter.lifetimeRem
      ∧ (deliver v n c).meter.lastGood = c.meter.lastGood ∧ (deliver v n c).meter.misses = c.meter.misses
      ∧ (deliver v n c).meter.band = c.meter.band ∧ (deliver v n c).meter.lowRun = c.meter.lowRun
      ∧ (deliver v n c).meter.recoveryRun = c.meter.recoveryRun ∧ (deliver v n c).switch = c.switch
      ∧ (deliver v n c).clock = c.clock ∧ (deliver v n c).store.cursor = c.store.cursor
      ∧ (deliver v n c).exchange = c.exchange ∧ (deliver v n c).radio.active = c.radio.active
      ∧ (deliver v n c).radio.rx = c.radio.rx ∧ (deliver v n c).radio.reception = c.radio.reception
      ∧ (deliver v n c).radio.onAir = c.radio.onAir ∧ (deliver v n c).channel = c.channel
      ∧ (deliver v n c).journal.block = c.journal.block ∧ (deliver v n c).journal.commissioning = c.journal.commissioning
      ∧ (deliver v n c).keypad.entry = c.keypad.entry ∧ (deliver v n c).keypad.buffer = c.keypad.buffer
      ∧ (deliver v n c).keypad.evaluation = c.keypad.evaluation ∧ (deliver v n c).service = c.service := by
  unfold deliver; dsimp only; repeat' split
  all_goals simp

@[simp] theorem countMetered_frame (c : Controller) :
    (countMetered c).power = c.power ∧ (countMetered c).params = c.params
      ∧ (countMetered c).decommissioning = c.decommissioning ∧ (countMetered c).meter.mode = c.meter.mode
      ∧ (countMetered c).meter.request = c.meter.request ∧ (countMetered c).meter.chargeRem = c.meter.chargeRem
      ∧ (countMetered c).meter.lifetimeRem = c.meter.lifetimeRem ∧ (countMetered c).meter.lastGood = c.meter.lastGood
      ∧ (countMetered c).meter.misses = c.meter.misses ∧ (countMetered c).meter.band = c.meter.band
      ∧ (countMetered c).meter.lowRun = c.meter.lowRun ∧ (countMetered c).meter.recoveryRun = c.meter.recoveryRun
      ∧ (countMetered c).switch = c.switch ∧ (countMetered c).clock = c.clock ∧ (countMetered c).store = c.store
      ∧ (countMetered c).exchange = c.exchange ∧ (countMetered c).radio = c.radio ∧ (countMetered c).channel = c.channel
      ∧ (countMetered c).journal.block = c.journal.block
      ∧ (countMetered c).journal.commissioning = c.journal.commissioning ∧ (countMetered c).keypad.entry = c.keypad.entry
      ∧ (countMetered c).keypad.buffer = c.keypad.buffer ∧ (countMetered c).keypad.evaluation = c.keypad.evaluation
      ∧ (countMetered c).service = c.service := by
  unfold countMetered; dsimp only; repeat' split
  all_goals simp

@[simp] theorem takeSecond_frame (c : Controller) :
    (takeSecond c).power = c.power ∧ (takeSecond c).params = c.params ∧ (takeSecond c).decommissioning = c.decommissioning
      ∧ (takeSecond c).meter.mode = c.meter.mode ∧ (takeSecond c).meter.request = c.meter.request
      ∧ (takeSecond c).meter.chargeRem = c.meter.chargeRem ∧ (takeSecond c).meter.lifetimeRem = c.meter.lifetimeRem
      ∧ (takeSecond c).meter.lastGood = c.meter.lastGood ∧ (takeSecond c).meter.misses = c.meter.misses
      ∧ (takeSecond c).meter.band = c.meter.band ∧ (takeSecond c).meter.lowRun = c.meter.lowRun
      ∧ (takeSecond c).meter.recoveryRun = c.meter.recoveryRun ∧ (takeSecond c).switch = c.switch
      ∧ (takeSecond c).clock = c.clock ∧ (takeSecond c).store.cursor = c.store.cursor
      ∧ (takeSecond c).exchange = c.exchange ∧ (takeSecond c).radio.active = c.radio.active
      ∧ (takeSecond c).radio.rx = c.radio.rx ∧ (takeSecond c).radio.reception = c.radio.reception
      ∧ (takeSecond c).radio.onAir = c.radio.onAir ∧ (takeSecond c).channel = c.channel
      ∧ (takeSecond c).journal.block = c.journal.block ∧ (takeSecond c).journal.commissioning = c.journal.commissioning
      ∧ (takeSecond c).keypad.entry = c.keypad.entry ∧ (takeSecond c).keypad.buffer = c.keypad.buffer
      ∧ (takeSecond c).keypad.evaluation = c.keypad.evaluation ∧ (takeSecond c).service = c.service := by
  unfold takeSecond; dsimp only; repeat' split
  all_goals simp

@[simp] theorem takeCharge_frame (c : Controller) :
    (takeCharge c).power = c.power ∧ (takeCharge c).params = c.params ∧ (takeCharge c).decommissioning = c.decommissioning
      ∧ (takeCharge c).meter.mode = c.meter.mode ∧ (takeCharge c).meter.request = c.meter.request
      ∧ (takeCharge c).meter.chargeRem = c.meter.chargeRem ∧ (takeCharge c).meter.lifetimeRem = c.meter.lifetimeRem
      ∧ (takeCharge c).meter.lastGood = c.meter.lastGood ∧ (takeCharge c).meter.misses = c.meter.misses
      ∧ (takeCharge c).meter.band = c.meter.band ∧ (takeCharge c).meter.lowRun = c.meter.lowRun
      ∧ (takeCharge c).meter.recoveryRun = c.meter.recoveryRun ∧ (takeCharge c).switch = c.switch
      ∧ (takeCharge c).clock = c.clock ∧ (takeCharge c).store.cursor = c.store.cursor
      ∧ (takeCharge c).exchange = c.exchange ∧ (takeCharge c).radio.active = c.radio.active
      ∧ (takeCharge c).radio.rx = c.radio.rx ∧ (takeCharge c).radio.reception = c.radio.reception
      ∧ (takeCharge c).radio.onAir = c.radio.onAir ∧ (takeCharge c).channel = c.channel
      ∧ (takeCharge c).journal.block = c.journal.block ∧ (takeCharge c).journal.commissioning = c.journal.commissioning
      ∧ (takeCharge c).keypad.entry = c.keypad.entry ∧ (takeCharge c).keypad.buffer = c.keypad.buffer
      ∧ (takeCharge c).keypad.evaluation = c.keypad.evaluation ∧ (takeCharge c).service = c.service := by
  unfold takeCharge; dsimp only; repeat' split
  all_goals simp

@[simp] theorem takeLifetime_frame (c : Controller) :
    (takeLifetime c).power = c.power ∧ (takeLifetime c).params = c.params
      ∧ (takeLifetime c).decommissioning = c.decommissioning ∧ (takeLifetime c).meter.mode = c.meter.mode
      ∧ (takeLifetime c).meter.request = c.meter.request ∧ (takeLifetime c).meter.chargeRem = c.meter.chargeRem
      ∧ (takeLifetime c).meter.lifetimeRem = c.meter.lifetimeRem ∧ (takeLifetime c).meter.lastGood = c.meter.lastGood
      ∧ (takeLifetime c).meter.misses = c.meter.misses ∧ (takeLifetime c).meter.band = c.meter.band
      ∧ (takeLifetime c).meter.lowRun = c.meter.lowRun ∧ (takeLifetime c).meter.recoveryRun = c.meter.recoveryRun
      ∧ (takeLifetime c).switch = c.switch ∧ (takeLifetime c).clock = c.clock ∧ (takeLifetime c).store = c.store
      ∧ (takeLifetime c).exchange = c.exchange ∧ (takeLifetime c).radio = c.radio ∧ (takeLifetime c).channel = c.channel
      ∧ (takeLifetime c).journal.block = c.journal.block
      ∧ (takeLifetime c).journal.commissioning = c.journal.commissioning ∧ (takeLifetime c).keypad.entry = c.keypad.entry
      ∧ (takeLifetime c).keypad.buffer = c.keypad.buffer ∧ (takeLifetime c).keypad.evaluation = c.keypad.evaluation
      ∧ (takeLifetime c).service = c.service := by
  unfold takeLifetime; repeat' split
  all_goals simp

@[simp] theorem takeBypass_frame (c : Controller) :
    (takeBypass c).power = c.power ∧ (takeBypass c).params = c.params ∧ (takeBypass c).decommissioning = c.decommissioning
      ∧ (takeBypass c).account.metered = c.account.metered ∧ (takeBypass c).meter.mode = c.meter.mode
      ∧ (takeBypass c).meter.request = c.meter.request ∧ (takeBypass c).meter.chargeRem = c.meter.chargeRem
      ∧ (takeBypass c).meter.lifetimeRem = c.meter.lifetimeRem ∧ (takeBypass c).meter.lastGood = c.meter.lastGood
      ∧ (takeBypass c).meter.misses = c.meter.misses ∧ (takeBypass c).meter.band = c.meter.band
      ∧ (takeBypass c).meter.lowRun = c.meter.lowRun ∧ (takeBypass c).meter.recoveryRun = c.meter.recoveryRun
      ∧ (takeBypass c).switch = c.switch ∧ (takeBypass c).clock = c.clock ∧ (takeBypass c).store.cursor = c.store.cursor
      ∧ (takeBypass c).exchange = c.exchange ∧ (takeBypass c).radio.active = c.radio.active
      ∧ (takeBypass c).radio.rx = c.radio.rx ∧ (takeBypass c).radio.reception = c.radio.reception
      ∧ (takeBypass c).radio.onAir = c.radio.onAir ∧ (takeBypass c).channel = c.channel
      ∧ (takeBypass c).journal.block = c.journal.block ∧ (takeBypass c).journal.commissioning = c.journal.commissioning
      ∧ (takeBypass c).keypad.entry = c.keypad.entry ∧ (takeBypass c).keypad.buffer = c.keypad.buffer
      ∧ (takeBypass c).keypad.evaluation = c.keypad.evaluation ∧ (takeBypass c).service = c.service := by
  unfold takeBypass; repeat' split
  all_goals simp

@[simp] theorem takeGoodSample_frame (c : Controller) :
    (takeGoodSample c).power = c.power ∧ (takeGoodSample c).params = c.params
      ∧ (takeGoodSample c).decommissioning = c.decommissioning ∧ (takeGoodSample c).account.live = c.account.live
      ∧ (takeGoodSample c).account.staged = c.account.staged ∧ (takeGoodSample c).account.flight = c.account.flight
      ∧ (takeGoodSample c).account.state = c.account.state ∧ (takeGoodSample c).account.pendingOwn = c.account.pendingOwn
      ∧ (takeGoodSample c).account.metered = c.account.metered ∧ (takeGoodSample c).meter = c.meter
      ∧ (takeGoodSample c).switch = c.switch ∧ (takeGoodSample c).clock = c.clock ∧ (takeGoodSample c).store = c.store
      ∧ (takeGoodSample c).exchange = c.exchange ∧ (takeGoodSample c).radio = c.radio
      ∧ (takeGoodSample c).channel = c.channel ∧ (takeGoodSample c).journal = c.journal
      ∧ (takeGoodSample c).check = c.check ∧ (takeGoodSample c).keypad = c.keypad ∧ (takeGoodSample c).service = c.service
      ∧ (takeGoodSample c).inTransit = c.inTransit ∧ (takeGoodSample c).draws = c.draws := by
  unfold takeGoodSample; repeat' split
  all_goals simp

@[simp] theorem takeNews_frame (n : ConditionNews) (c : Controller) :
    (takeNews n c).power = c.power ∧ (takeNews n c).params = c.params ∧ (takeNews n c).decommissioning = c.decommissioning
      ∧ (takeNews n c).account.metered = c.account.metered ∧ (takeNews n c).meter.mode = c.meter.mode
      ∧ (takeNews n c).meter.request = c.meter.request ∧ (takeNews n c).meter.chargeRem = c.meter.chargeRem
      ∧ (takeNews n c).meter.lifetimeRem = c.meter.lifetimeRem ∧ (takeNews n c).meter.lastGood = c.meter.lastGood
      ∧ (takeNews n c).meter.misses = c.meter.misses ∧ (takeNews n c).meter.band = c.meter.band
      ∧ (takeNews n c).meter.lowRun = c.meter.lowRun ∧ (takeNews n c).meter.recoveryRun = c.meter.recoveryRun
      ∧ (takeNews n c).switch = c.switch ∧ (takeNews n c).clock = c.clock ∧ (takeNews n c).store.cursor = c.store.cursor
      ∧ (takeNews n c).exchange = c.exchange ∧ (takeNews n c).radio.active = c.radio.active
      ∧ (takeNews n c).radio.rx = c.radio.rx ∧ (takeNews n c).radio.reception = c.radio.reception
      ∧ (takeNews n c).radio.onAir = c.radio.onAir ∧ (takeNews n c).channel = c.channel
      ∧ (takeNews n c).journal.block = c.journal.block ∧ (takeNews n c).journal.commissioning = c.journal.commissioning
      ∧ (takeNews n c).keypad.entry = c.keypad.entry ∧ (takeNews n c).keypad.buffer = c.keypad.buffer
      ∧ (takeNews n c).keypad.evaluation = c.keypad.evaluation ∧ (takeNews n c).service = c.service := by
  unfold takeNews; repeat' split
  all_goals simp

@[simp] theorem takeTimeState_frame (t : TimeState) (c : Controller) :
    (takeTimeState t c).power = c.power ∧ (takeTimeState t c).params = c.params
      ∧ (takeTimeState t c).decommissioning = c.decommissioning ∧ (takeTimeState t c).account.live = c.account.live
      ∧ (takeTimeState t c).account.staged = c.account.staged ∧ (takeTimeState t c).account.flight = c.account.flight
      ∧ (takeTimeState t c).account.state = c.account.state
      ∧ (takeTimeState t c).account.pendingOwn = c.account.pendingOwn
      ∧ (takeTimeState t c).account.metered = c.account.metered ∧ (takeTimeState t c).meter = c.meter
      ∧ (takeTimeState t c).switch = c.switch ∧ (takeTimeState t c).clock = c.clock ∧ (takeTimeState t c).store = c.store
      ∧ (takeTimeState t c).exchange = c.exchange ∧ (takeTimeState t c).radio = c.radio
      ∧ (takeTimeState t c).channel = c.channel ∧ (takeTimeState t c).journal = c.journal
      ∧ (takeTimeState t c).check = c.check ∧ (takeTimeState t c).keypad = c.keypad
      ∧ (takeTimeState t c).service = c.service ∧ (takeTimeState t c).inTransit = c.inTransit
      ∧ (takeTimeState t c).draws = c.draws := by
  unfold takeTimeState; repeat' split
  all_goals simp

@[simp] theorem takeRollover_frame (d : Nat) (c : Controller) :
    (takeRollover d c).power = c.power ∧ (takeRollover d c).params = c.params
      ∧ (takeRollover d c).decommissioning = c.decommissioning ∧ (takeRollover d c).account.metered = c.account.metered
      ∧ (takeRollover d c).meter.mode = c.meter.mode ∧ (takeRollover d c).meter.request = c.meter.request
      ∧ (takeRollover d c).meter.chargeRem = c.meter.chargeRem
      ∧ (takeRollover d c).meter.lifetimeRem = c.meter.lifetimeRem ∧ (takeRollover d c).meter.lastGood = c.meter.lastGood
      ∧ (takeRollover d c).meter.misses = c.meter.misses ∧ (takeRollover d c).meter.band = c.meter.band
      ∧ (takeRollover d c).meter.lowRun = c.meter.lowRun ∧ (takeRollover d c).meter.recoveryRun = c.meter.recoveryRun
      ∧ (takeRollover d c).switch = c.switch ∧ (takeRollover d c).clock = c.clock
      ∧ (takeRollover d c).store.cursor = c.store.cursor ∧ (takeRollover d c).exchange = c.exchange
      ∧ (takeRollover d c).radio.active = c.radio.active ∧ (takeRollover d c).radio.rx = c.radio.rx
      ∧ (takeRollover d c).radio.reception = c.radio.reception ∧ (takeRollover d c).radio.onAir = c.radio.onAir
      ∧ (takeRollover d c).channel = c.channel ∧ (takeRollover d c).journal.block = c.journal.block
      ∧ (takeRollover d c).journal.commissioning = c.journal.commissioning
      ∧ (takeRollover d c).keypad.entry = c.keypad.entry ∧ (takeRollover d c).keypad.buffer = c.keypad.buffer
      ∧ (takeRollover d c).keypad.evaluation = c.keypad.evaluation ∧ (takeRollover d c).service = c.service := by
  unfold takeRollover; dsimp only; repeat' split
  all_goals simp

@[simp] theorem goLive_frame (n : Nat) (c : Controller) :
    (goLive n c).power = c.power ∧ (goLive n c).params = c.params ∧ (goLive n c).decommissioning = c.decommissioning
      ∧ (goLive n c).account.pendingOwn = c.account.pendingOwn ∧ (goLive n c).meter.mode = c.meter.mode
      ∧ (goLive n c).meter.request = c.meter.request ∧ (goLive n c).meter.chargeRem = c.meter.chargeRem
      ∧ (goLive n c).meter.lifetimeRem = c.meter.lifetimeRem ∧ (goLive n c).meter.lastGood = c.meter.lastGood
      ∧ (goLive n c).meter.misses = c.meter.misses ∧ (goLive n c).meter.band = c.meter.band
      ∧ (goLive n c).meter.lowRun = c.meter.lowRun ∧ (goLive n c).meter.recoveryRun = c.meter.recoveryRun
      ∧ (goLive n c).switch = c.switch ∧ (goLive n c).clock = c.clock ∧ (goLive n c).store = c.store
      ∧ (goLive n c).exchange = c.exchange ∧ (goLive n c).radio = c.radio ∧ (goLive n c).channel = c.channel
      ∧ (goLive n c).journal = c.journal ∧ (goLive n c).keypad.entry = c.keypad.entry
      ∧ (goLive n c).keypad.buffer = c.keypad.buffer ∧ (goLive n c).keypad.evaluation = c.keypad.evaluation
      ∧ (goLive n c).service = c.service := by
  unfold goLive; dsimp only; repeat' split
  all_goals simp

@[simp] theorem completeFlight_frame (f : Flight) (n : Nat) (c : Controller) :
    (completeFlight f n c).power = c.power ∧ (completeFlight f n c).params = c.params
      ∧ (completeFlight f n c).decommissioning = c.decommissioning ∧ (completeFlight f n c).meter.mode = c.meter.mode
      ∧ (completeFlight f n c).meter.request = c.meter.request
      ∧ (completeFlight f n c).meter.chargeRem = c.meter.chargeRem
      ∧ (completeFlight f n c).meter.lifetimeRem = c.meter.lifetimeRem
      ∧ (completeFlight f n c).meter.lastGood = c.meter.lastGood
      ∧ (completeFlight f n c).meter.misses = c.meter.misses ∧ (completeFlight f n c).meter.band = c.meter.band
      ∧ (completeFlight f n c).meter.lowRun = c.meter.lowRun
      ∧ (completeFlight f n c).meter.recoveryRun = c.meter.recoveryRun ∧ (completeFlight f n c).switch = c.switch
      ∧ (completeFlight f n c).clock = c.clock ∧ (completeFlight f n c).store.cursor = c.store.cursor
      ∧ (completeFlight f n c).exchange = c.exchange ∧ (completeFlight f n c).radio.active = c.radio.active
      ∧ (completeFlight f n c).radio.rx = c.radio.rx ∧ (completeFlight f n c).radio.reception = c.radio.reception
      ∧ (completeFlight f n c).radio.onAir = c.radio.onAir ∧ (completeFlight f n c).channel = c.channel
      ∧ (completeFlight f n c).journal.block = c.journal.block
      ∧ (completeFlight f n c).journal.commissioning = c.journal.commissioning
      ∧ (completeFlight f n c).keypad.entry = c.keypad.entry ∧ (completeFlight f n c).keypad.buffer = c.keypad.buffer
      ∧ (completeFlight f n c).keypad.evaluation = c.keypad.evaluation ∧ (completeFlight f n c).service = c.service := by
  simp [completeFlight]

@[simp] theorem takeStagedVerified_frame (r : Nat) (c : Controller) :
    (takeStagedVerified r c).power = c.power ∧ (takeStagedVerified r c).params = c.params
      ∧ (takeStagedVerified r c).decommissioning = c.decommissioning ∧ (takeStagedVerified r c).meter.mode = c.meter.mode
      ∧ (takeStagedVerified r c).meter.request = c.meter.request
      ∧ (takeStagedVerified r c).meter.chargeRem = c.meter.chargeRem
      ∧ (takeStagedVerified r c).meter.lifetimeRem = c.meter.lifetimeRem
      ∧ (takeStagedVerified r c).meter.lastGood = c.meter.lastGood
      ∧ (takeStagedVerified r c).meter.misses = c.meter.misses ∧ (takeStagedVerified r c).meter.band = c.meter.band
      ∧ (takeStagedVerified r c).meter.lowRun = c.meter.lowRun
      ∧ (takeStagedVerified r c).meter.recoveryRun = c.meter.recoveryRun ∧ (takeStagedVerified r c).switch = c.switch
      ∧ (takeStagedVerified r c).clock = c.clock ∧ (takeStagedVerified r c).store.cursor = c.store.cursor
      ∧ (takeStagedVerified r c).exchange = c.exchange ∧ (takeStagedVerified r c).radio.active = c.radio.active
      ∧ (takeStagedVerified r c).radio.rx = c.radio.rx ∧ (takeStagedVerified r c).radio.reception = c.radio.reception
      ∧ (takeStagedVerified r c).radio.onAir = c.radio.onAir ∧ (takeStagedVerified r c).channel = c.channel
      ∧ (takeStagedVerified r c).journal.block = c.journal.block
      ∧ (takeStagedVerified r c).journal.commissioning = c.journal.commissioning
      ∧ (takeStagedVerified r c).keypad.entry = c.keypad.entry ∧ (takeStagedVerified r c).keypad.buffer = c.keypad.buffer
      ∧ (takeStagedVerified r c).keypad.evaluation = c.keypad.evaluation ∧ (takeStagedVerified r c).service = c.service := by
  unfold takeStagedVerified; dsimp only; repeat' split
  all_goals simp

@[simp] theorem takePeriodicVerified_frame (n : Nat) (c : Controller) :
    (takePeriodicVerified n c).power = c.power ∧ (takePeriodicVerified n c).params = c.params
      ∧ (takePeriodicVerified n c).decommissioning = c.decommissioning
      ∧ (takePeriodicVerified n c).meter.mode = c.meter.mode ∧ (takePeriodicVerified n c).meter.request = c.meter.request
      ∧ (takePeriodicVerified n c).meter.chargeRem = c.meter.chargeRem
      ∧ (takePeriodicVerified n c).meter.lifetimeRem = c.meter.lifetimeRem
      ∧ (takePeriodicVerified n c).meter.lastGood = c.meter.lastGood
      ∧ (takePeriodicVerified n c).meter.misses = c.meter.misses ∧ (takePeriodicVerified n c).meter.band = c.meter.band
      ∧ (takePeriodicVerified n c).meter.lowRun = c.meter.lowRun
      ∧ (takePeriodicVerified n c).meter.recoveryRun = c.meter.recoveryRun ∧ (takePeriodicVerified n c).switch = c.switch
      ∧ (takePeriodicVerified n c).clock = c.clock ∧ (takePeriodicVerified n c).store.cursor = c.store.cursor
      ∧ (takePeriodicVerified n c).exchange = c.exchange ∧ (takePeriodicVerified n c).radio.active = c.radio.active
      ∧ (takePeriodicVerified n c).radio.rx = c.radio.rx ∧ (takePeriodicVerified n c).radio.reception = c.radio.reception
      ∧ (takePeriodicVerified n c).radio.onAir = c.radio.onAir ∧ (takePeriodicVerified n c).channel = c.channel
      ∧ (takePeriodicVerified n c).journal.block = c.journal.block
      ∧ (takePeriodicVerified n c).journal.commissioning = c.journal.commissioning
      ∧ (takePeriodicVerified n c).keypad.entry = c.keypad.entry
      ∧ (takePeriodicVerified n c).keypad.buffer = c.keypad.buffer
      ∧ (takePeriodicVerified n c).keypad.evaluation = c.keypad.evaluation
      ∧ (takePeriodicVerified n c).service = c.service := by
  unfold takePeriodicVerified; repeat' split
  all_goals simp

@[simp] theorem abandonFlight_frame (c : Controller) :
    (abandonFlight c).power = c.power ∧ (abandonFlight c).params = c.params
      ∧ (abandonFlight c).decommissioning = c.decommissioning ∧ (abandonFlight c).account.live = c.account.live
      ∧ (abandonFlight c).account.state = c.account.state ∧ (abandonFlight c).account.conditions = c.account.conditions
      ∧ (abandonFlight c).account.metered = c.account.metered ∧ (abandonFlight c).meter = c.meter
      ∧ (abandonFlight c).switch = c.switch ∧ (abandonFlight c).clock = c.clock ∧ (abandonFlight c).store = c.store
      ∧ (abandonFlight c).exchange = c.exchange ∧ (abandonFlight c).radio = c.radio
      ∧ (abandonFlight c).channel = c.channel ∧ (abandonFlight c).journal = c.journal
      ∧ (abandonFlight c).keypad = c.keypad ∧ (abandonFlight c).service = c.service := by
  unfold abandonFlight; dsimp only; repeat' split
  all_goals simp

@[simp] theorem takeInhibited_frame (c : Controller) :
    (takeInhibited c).power = c.power ∧ (takeInhibited c).params = c.params
      ∧ (takeInhibited c).decommissioning = c.decommissioning ∧ (takeInhibited c).account.metered = c.account.metered
      ∧ (takeInhibited c).meter.mode = c.meter.mode ∧ (takeInhibited c).meter.request = c.meter.request
      ∧ (takeInhibited c).meter.chargeRem = c.meter.chargeRem ∧ (takeInhibited c).meter.lifetimeRem = c.meter.lifetimeRem
      ∧ (takeInhibited c).meter.lastGood = c.meter.lastGood ∧ (takeInhibited c).meter.misses = c.meter.misses
      ∧ (takeInhibited c).meter.band = c.meter.band ∧ (takeInhibited c).meter.lowRun = c.meter.lowRun
      ∧ (takeInhibited c).meter.recoveryRun = c.meter.recoveryRun ∧ (takeInhibited c).switch = c.switch
      ∧ (takeInhibited c).clock = c.clock ∧ (takeInhibited c).store.cursor = c.store.cursor
      ∧ (takeInhibited c).exchange = c.exchange ∧ (takeInhibited c).radio.active = c.radio.active
      ∧ (takeInhibited c).radio.rx = c.radio.rx ∧ (takeInhibited c).radio.reception = c.radio.reception
      ∧ (takeInhibited c).radio.onAir = c.radio.onAir ∧ (takeInhibited c).channel = c.channel
      ∧ (takeInhibited c).journal.block = c.journal.block
      ∧ (takeInhibited c).journal.commissioning = c.journal.commissioning
      ∧ (takeInhibited c).keypad.entry = c.keypad.entry ∧ (takeInhibited c).keypad.buffer = c.keypad.buffer
      ∧ (takeInhibited c).keypad.evaluation = c.keypad.evaluation ∧ (takeInhibited c).service = c.service := by
  unfold takeInhibited; repeat' split
  all_goals simp

@[simp] theorem takeFailed_frame (k : CommitKind) (c : Controller) :
    (takeFailed k c).power = c.power ∧ (takeFailed k c).params = c.params
      ∧ (takeFailed k c).decommissioning = c.decommissioning ∧ (takeFailed k c).account.metered = c.account.metered
      ∧ (takeFailed k c).meter.mode = c.meter.mode ∧ (takeFailed k c).meter.request = c.meter.request
      ∧ (takeFailed k c).meter.chargeRem = c.meter.chargeRem ∧ (takeFailed k c).meter.lifetimeRem = c.meter.lifetimeRem
      ∧ (takeFailed k c).meter.lastGood = c.meter.lastGood ∧ (takeFailed k c).meter.misses = c.meter.misses
      ∧ (takeFailed k c).meter.band = c.meter.band ∧ (takeFailed k c).meter.lowRun = c.meter.lowRun
      ∧ (takeFailed k c).meter.recoveryRun = c.meter.recoveryRun ∧ (takeFailed k c).switch = c.switch
      ∧ (takeFailed k c).clock = c.clock ∧ (takeFailed k c).store.cursor = c.store.cursor
      ∧ (takeFailed k c).exchange = c.exchange ∧ (takeFailed k c).radio.active = c.radio.active
      ∧ (takeFailed k c).radio.rx = c.radio.rx ∧ (takeFailed k c).radio.reception = c.radio.reception
      ∧ (takeFailed k c).radio.onAir = c.radio.onAir ∧ (takeFailed k c).channel = c.channel
      ∧ (takeFailed k c).journal.block = c.journal.block
      ∧ (takeFailed k c).journal.commissioning = c.journal.commissioning ∧ (takeFailed k c).keypad.entry = c.keypad.entry
      ∧ (takeFailed k c).keypad.buffer = c.keypad.buffer ∧ (takeFailed k c).keypad.evaluation = c.keypad.evaluation
      ∧ (takeFailed k c).service = c.service := by
  unfold takeFailed; dsimp only; repeat' split
  all_goals simp

end Sys2Proof.Machine
end

