-- ==== Sys2Proof/Laws/FramesBlocks.lean ====
section
/-! SUPPORT. What each operation of the Meter, the switch, the clock, the radio, the exchange, the Journal's commands, the keypad and the service line
leaves alone: one lemma for each, the fields of the Controller that stand as they were. -/

namespace Sys2Proof.Machine

/-! ### Meter.lean -/

@[simp] theorem lifetimeStage_frame (p : Nat) (c : Controller) :
    (lifetimeStage p c).power = c.power ∧ (lifetimeStage p c).params = c.params
      ∧ (lifetimeStage p c).decommissioning = c.decommissioning ∧ (lifetimeStage p c).account = c.account
      ∧ (lifetimeStage p c).meter.mode = c.meter.mode ∧ (lifetimeStage p c).meter.request = c.meter.request
      ∧ (lifetimeStage p c).meter.chargeRem = c.meter.chargeRem ∧ (lifetimeStage p c).meter.lastGood = c.meter.lastGood
      ∧ (lifetimeStage p c).meter.misses = c.meter.misses ∧ (lifetimeStage p c).meter.band = c.meter.band
      ∧ (lifetimeStage p c).meter.lowRun = c.meter.lowRun ∧ (lifetimeStage p c).meter.recoveryRun = c.meter.recoveryRun
      ∧ (lifetimeStage p c).meter.known = c.meter.known ∧ (lifetimeStage p c).switch = c.switch
      ∧ (lifetimeStage p c).clock = c.clock ∧ (lifetimeStage p c).store = c.store
      ∧ (lifetimeStage p c).exchange = c.exchange ∧ (lifetimeStage p c).radio = c.radio
      ∧ (lifetimeStage p c).channel = c.channel ∧ (lifetimeStage p c).journal = c.journal
      ∧ (lifetimeStage p c).check = c.check ∧ (lifetimeStage p c).keypad = c.keypad
      ∧ (lifetimeStage p c).service = c.service ∧ (lifetimeStage p c).draws = c.draws := by
  unfold lifetimeStage; dsimp only; repeat' split
  all_goals simp

@[simp] theorem chargeStage_frame (k : LoadClass) (p : Nat) (c : Controller) :
    (chargeStage k p c).power = c.power ∧ (chargeStage k p c).params = c.params
      ∧ (chargeStage k p c).decommissioning = c.decommissioning ∧ (chargeStage k p c).account = c.account
      ∧ (chargeStage k p c).meter.mode = c.meter.mode ∧ (chargeStage k p c).meter.request = c.meter.request
      ∧ (chargeStage k p c).meter.lifetimeRem = c.meter.lifetimeRem
      ∧ (chargeStage k p c).meter.lastGood = c.meter.lastGood ∧ (chargeStage k p c).meter.misses = c.meter.misses
      ∧ (chargeStage k p c).meter.band = c.meter.band ∧ (chargeStage k p c).meter.lowRun = c.meter.lowRun
      ∧ (chargeStage k p c).meter.recoveryRun = c.meter.recoveryRun ∧ (chargeStage k p c).meter.known = c.meter.known
      ∧ (chargeStage k p c).switch = c.switch ∧ (chargeStage k p c).clock = c.clock ∧ (chargeStage k p c).store = c.store
      ∧ (chargeStage k p c).exchange = c.exchange ∧ (chargeStage k p c).radio = c.radio
      ∧ (chargeStage k p c).channel = c.channel ∧ (chargeStage k p c).journal = c.journal
      ∧ (chargeStage k p c).check = c.check ∧ (chargeStage k p c).keypad = c.keypad
      ∧ (chargeStage k p c).service = c.service ∧ (chargeStage k p c).draws = c.draws := by
  unfold chargeStage; dsimp only; repeat' split
  all_goals simp

@[simp] theorem capStage_frame (d : Bool) (p : Nat) (c : Controller) :
    (capStage d p c).power = c.power ∧ (capStage d p c).params = c.params
      ∧ (capStage d p c).decommissioning = c.decommissioning ∧ (capStage d p c).account = c.account
      ∧ (capStage d p c).meter = c.meter ∧ (capStage d p c).switch = c.switch ∧ (capStage d p c).clock = c.clock
      ∧ (capStage d p c).store = c.store ∧ (capStage d p c).exchange = c.exchange ∧ (capStage d p c).radio = c.radio
      ∧ (capStage d p c).channel = c.channel ∧ (capStage d p c).journal = c.journal ∧ (capStage d p c).check = c.check
      ∧ (capStage d p c).keypad = c.keypad ∧ (capStage d p c).service = c.service ∧ (capStage d p c).draws = c.draws := by
  unfold capStage; repeat' split
  all_goals simp

@[simp] theorem tellSuspended_frame (b : Bool) (c : Controller) :
    (tellSuspended b c).power = c.power ∧ (tellSuspended b c).params = c.params
      ∧ (tellSuspended b c).decommissioning = c.decommissioning ∧ (tellSuspended b c).account = c.account
      ∧ (tellSuspended b c).meter = c.meter ∧ (tellSuspended b c).switch = c.switch ∧ (tellSuspended b c).clock = c.clock
      ∧ (tellSuspended b c).store = c.store ∧ (tellSuspended b c).exchange.hailer = c.exchange.hailer
      ∧ (tellSuspended b c).exchange.number = c.exchange.number
      ∧ (tellSuspended b c).exchange.hailTimer = c.exchange.hailTimer
      ∧ (tellSuspended b c).exchange.askQueue = c.exchange.askQueue
      ∧ (tellSuspended b c).exchange.service = c.exchange.service ∧ (tellSuspended b c).exchange.tally = c.exchange.tally
      ∧ (tellSuspended b c).exchange.asker = c.exchange.asker ∧ (tellSuspended b c).radio = c.radio
      ∧ (tellSuspended b c).channel = c.channel ∧ (tellSuspended b c).journal = c.journal
      ∧ (tellSuspended b c).check = c.check ∧ (tellSuspended b c).keypad = c.keypad
      ∧ (tellSuspended b c).service = c.service ∧ (tellSuspended b c).inTransit = c.inTransit
      ∧ (tellSuspended b c).draws = c.draws := by
  exact ⟨rfl, rfl, rfl, rfl, rfl, rfl, rfl, rfl, rfl, rfl, rfl, rfl, rfl, rfl, rfl, rfl, rfl, rfl, rfl, rfl, rfl, rfl, rfl⟩

@[simp] theorem bandNormal_frame (v : Nat) (c : Controller) :
    (bandNormal v c).power = c.power ∧ (bandNormal v c).params = c.params
      ∧ (bandNormal v c).decommissioning = c.decommissioning ∧ (bandNormal v c).account = c.account
      ∧ (bandNormal v c).meter.mode = c.meter.mode ∧ (bandNormal v c).meter.request = c.meter.request
      ∧ (bandNormal v c).meter.chargeRem = c.meter.chargeRem ∧ (bandNormal v c).meter.lifetimeRem = c.meter.lifetimeRem
      ∧ (bandNormal v c).meter.lastGood = c.meter.lastGood ∧ (bandNormal v c).meter.misses = c.meter.misses
      ∧ (bandNormal v c).meter.known = c.meter.known ∧ (bandNormal v c).switch = c.switch
      ∧ (bandNormal v c).clock = c.clock ∧ (bandNormal v c).store = c.store
      ∧ (bandNormal v c).exchange.hailer = c.exchange.hailer ∧ (bandNormal v c).exchange.number = c.exchange.number
      ∧ (bandNormal v c).exchange.hailTimer = c.exchange.hailTimer
      ∧ (bandNormal v c).exchange.askQueue = c.exchange.askQueue ∧ (bandNormal v c).exchange.service = c.exchange.service
      ∧ (bandNormal v c).exchange.tally = c.exchange.tally ∧ (bandNormal v c).exchange.asker = c.exchange.asker
      ∧ (bandNormal v c).radio = c.radio ∧ (bandNormal v c).channel = c.channel ∧ (bandNormal v c).journal = c.journal
      ∧ (bandNormal v c).check = c.check ∧ (bandNormal v c).keypad = c.keypad ∧ (bandNormal v c).service = c.service
      ∧ (bandNormal v c).draws = c.draws := by
  unfold bandNormal; dsimp only; repeat' split
  all_goals simp

@[simp] theorem bandLow_frame (v : Nat) (c : Controller) :
    (bandLow v c).power = c.power ∧ (bandLow v c).params = c.params ∧ (bandLow v c).decommissioning = c.decommissioning
      ∧ (bandLow v c).account = c.account ∧ (bandLow v c).meter.mode = c.meter.mode
      ∧ (bandLow v c).meter.request = c.meter.request ∧ (bandLow v c).meter.chargeRem = c.meter.chargeRem
      ∧ (bandLow v c).meter.lifetimeRem = c.meter.lifetimeRem ∧ (bandLow v c).meter.lastGood = c.meter.lastGood
      ∧ (bandLow v c).meter.misses = c.meter.misses ∧ (bandLow v c).meter.known = c.meter.known
      ∧ (bandLow v c).switch = c.switch ∧ (bandLow v c).clock = c.clock ∧ (bandLow v c).store = c.store
      ∧ (bandLow v c).exchange.hailer = c.exchange.hailer ∧ (bandLow v c).exchange.number = c.exchange.number
      ∧ (bandLow v c).exchange.hailTimer = c.exchange.hailTimer ∧ (bandLow v c).exchange.askQueue = c.exchange.askQueue
      ∧ (bandLow v c).exchange.service = c.exchange.service ∧ (bandLow v c).exchange.tally = c.exchange.tally
      ∧ (bandLow v c).exchange.asker = c.exchange.asker ∧ (bandLow v c).radio = c.radio
      ∧ (bandLow v c).channel = c.channel ∧ (bandLow v c).journal = c.journal ∧ (bandLow v c).check = c.check
      ∧ (bandLow v c).keypad = c.keypad ∧ (bandLow v c).service = c.service ∧ (bandLow v c).draws = c.draws := by
  unfold bandLow; dsimp only; repeat' split
  all_goals simp

@[simp] theorem bandStage_frame (v : Nat) (c : Controller) :
    (bandStage v c).power = c.power ∧ (bandStage v c).params = c.params
      ∧ (bandStage v c).decommissioning = c.decommissioning ∧ (bandStage v c).account = c.account
      ∧ (bandStage v c).meter.mode = c.meter.mode ∧ (bandStage v c).meter.request = c.meter.request
      ∧ (bandStage v c).meter.chargeRem = c.meter.chargeRem ∧ (bandStage v c).meter.lifetimeRem = c.meter.lifetimeRem
      ∧ (bandStage v c).meter.lastGood = c.meter.lastGood ∧ (bandStage v c).meter.misses = c.meter.misses
      ∧ (bandStage v c).meter.known = c.meter.known ∧ (bandStage v c).switch = c.switch ∧ (bandStage v c).clock = c.clock
      ∧ (bandStage v c).store = c.store ∧ (bandStage v c).exchange.hailer = c.exchange.hailer
      ∧ (bandStage v c).exchange.number = c.exchange.number ∧ (bandStage v c).exchange.hailTimer = c.exchange.hailTimer
      ∧ (bandStage v c).exchange.askQueue = c.exchange.askQueue ∧ (bandStage v c).exchange.service = c.exchange.service
      ∧ (bandStage v c).exchange.tally = c.exchange.tally ∧ (bandStage v c).exchange.asker = c.exchange.asker
      ∧ (bandStage v c).radio = c.radio ∧ (bandStage v c).channel = c.channel ∧ (bandStage v c).journal = c.journal
      ∧ (bandStage v c).check = c.check ∧ (bandStage v c).keypad = c.keypad ∧ (bandStage v c).service = c.service
      ∧ (bandStage v c).draws = c.draws := by
  unfold bandStage; repeat' split
  all_goals simp

@[simp] theorem closeStage_frame (p v : Nat) (c : Controller) :
    (closeStage p v c).power = c.power ∧ (closeStage p v c).params = c.params
      ∧ (closeStage p v c).decommissioning = c.decommissioning ∧ (closeStage p v c).account = c.account
      ∧ (closeStage p v c).meter.mode = c.meter.mode ∧ (closeStage p v c).meter.request = c.meter.request
      ∧ (closeStage p v c).meter.chargeRem = c.meter.chargeRem
      ∧ (closeStage p v c).meter.lifetimeRem = c.meter.lifetimeRem ∧ (closeStage p v c).meter.known = c.meter.known
      ∧ (closeStage p v c).switch = c.switch ∧ (closeStage p v c).clock = c.clock ∧ (closeStage p v c).store = c.store
      ∧ (closeStage p v c).exchange.hailer = c.exchange.hailer ∧ (closeStage p v c).exchange.number = c.exchange.number
      ∧ (closeStage p v c).exchange.hailTimer = c.exchange.hailTimer
      ∧ (closeStage p v c).exchange.askQueue = c.exchange.askQueue
      ∧ (closeStage p v c).exchange.service = c.exchange.service ∧ (closeStage p v c).exchange.tally = c.exchange.tally
      ∧ (closeStage p v c).exchange.asker = c.exchange.asker ∧ (closeStage p v c).radio = c.radio
      ∧ (closeStage p v c).channel = c.channel ∧ (closeStage p v c).journal = c.journal
      ∧ (closeStage p v c).check = c.check ∧ (closeStage p v c).keypad = c.keypad ∧ (closeStage p v c).service = c.service
      ∧ (closeStage p v c).draws = c.draws := by
  simp [closeStage]

@[simp] theorem openStages_frame (i v : Nat) (c : Controller) :
    (openStages i v c).power = c.power ∧ (openStages i v c).params = c.params
      ∧ (openStages i v c).decommissioning = c.decommissioning ∧ (openStages i v c).account = c.account
      ∧ (openStages i v c).meter = c.meter ∧ (openStages i v c).switch = c.switch ∧ (openStages i v c).clock = c.clock
      ∧ (openStages i v c).store = c.store ∧ (openStages i v c).exchange = c.exchange ∧ (openStages i v c).radio = c.radio
      ∧ (openStages i v c).channel = c.channel ∧ (openStages i v c).journal = c.journal
      ∧ (openStages i v c).check = c.check ∧ (openStages i v c).keypad = c.keypad ∧ (openStages i v c).service = c.service
      ∧ (openStages i v c).draws = c.draws := by
  unfold openStages; dsimp only; repeat' split
  all_goals simp

@[simp] theorem energyStages_frame (p : Nat) (c : Controller) :
    (energyStages p c).power = c.power ∧ (energyStages p c).params = c.params
      ∧ (energyStages p c).decommissioning = c.decommissioning ∧ (energyStages p c).account = c.account
      ∧ (energyStages p c).meter.mode = c.meter.mode ∧ (energyStages p c).meter.request = c.meter.request
      ∧ (energyStages p c).meter.lastGood = c.meter.lastGood ∧ (energyStages p c).meter.misses = c.meter.misses
      ∧ (energyStages p c).meter.band = c.meter.band ∧ (energyStages p c).meter.lowRun = c.meter.lowRun
      ∧ (energyStages p c).meter.recoveryRun = c.meter.recoveryRun ∧ (energyStages p c).meter.known = c.meter.known
      ∧ (energyStages p c).switch = c.switch ∧ (energyStages p c).clock = c.clock ∧ (energyStages p c).store = c.store
      ∧ (energyStages p c).exchange = c.exchange ∧ (energyStages p c).radio = c.radio
      ∧ (energyStages p c).channel = c.channel ∧ (energyStages p c).journal = c.journal
      ∧ (energyStages p c).check = c.check ∧ (energyStages p c).keypad = c.keypad ∧ (energyStages p c).service = c.service
      ∧ (energyStages p c).draws = c.draws := by
  simp [energyStages]

@[simp] theorem workGood_frame (i v : Nat) (c : Controller) :
    (workGood i v c).power = c.power ∧ (workGood i v c).params = c.params
      ∧ (workGood i v c).decommissioning = c.decommissioning ∧ (workGood i v c).account = c.account
      ∧ (workGood i v c).meter.mode = c.meter.mode ∧ (workGood i v c).meter.request = c.meter.request
      ∧ (workGood i v c).meter.known = c.meter.known ∧ (workGood i v c).switch = c.switch
      ∧ (workGood i v c).clock = c.clock ∧ (workGood i v c).store = c.store
      ∧ (workGood i v c).exchange.hailer = c.exchange.hailer ∧ (workGood i v c).exchange.number = c.exchange.number
      ∧ (workGood i v c).exchange.hailTimer = c.exchange.hailTimer
      ∧ (workGood i v c).exchange.askQueue = c.exchange.askQueue ∧ (workGood i v c).exchange.service = c.exchange.service
      ∧ (workGood i v c).exchange.tally = c.exchange.tally ∧ (workGood i v c).exchange.asker = c.exchange.asker
      ∧ (workGood i v c).radio = c.radio ∧ (workGood i v c).channel = c.channel ∧ (workGood i v c).journal = c.journal
      ∧ (workGood i v c).check = c.check ∧ (workGood i v c).keypad = c.keypad ∧ (workGood i v c).service = c.service
      ∧ (workGood i v c).draws = c.draws := by
  simp [workGood]

@[simp] theorem workMissed_frame (c : Controller) :
    (workMissed c).power = c.power ∧ (workMissed c).params = c.params ∧ (workMissed c).decommissioning = c.decommissioning
      ∧ (workMissed c).account = c.account ∧ (workMissed c).meter.mode = c.meter.mode
      ∧ (workMissed c).meter.request = c.meter.request ∧ (workMissed c).meter.lastGood = c.meter.lastGood
      ∧ (workMissed c).meter.band = c.meter.band ∧ (workMissed c).meter.lowRun = c.meter.lowRun
      ∧ (workMissed c).meter.recoveryRun = c.meter.recoveryRun ∧ (workMissed c).meter.known = c.meter.known
      ∧ (workMissed c).switch = c.switch ∧ (workMissed c).clock = c.clock ∧ (workMissed c).store = c.store
      ∧ (workMissed c).exchange = c.exchange ∧ (workMissed c).radio = c.radio ∧ (workMissed c).channel = c.channel
      ∧ (workMissed c).journal = c.journal ∧ (workMissed c).check = c.check ∧ (workMissed c).keypad = c.keypad
      ∧ (workMissed c).service = c.service ∧ (workMissed c).draws = c.draws := by
  simp [workMissed]

@[simp] theorem takeHoldSeconds_frame (c : Controller) :
    (takeHoldSeconds c).power = c.power ∧ (takeHoldSeconds c).params = c.params
      ∧ (takeHoldSeconds c).decommissioning = c.decommissioning ∧ (takeHoldSeconds c).account = c.account
      ∧ (takeHoldSeconds c).meter = c.meter ∧ (takeHoldSeconds c).clock = c.clock
      ∧ (takeHoldSeconds c).store = c.store ∧ (takeHoldSeconds c).exchange = c.exchange
      ∧ (takeHoldSeconds c).radio = c.radio ∧ (takeHoldSeconds c).channel = c.channel
      ∧ (takeHoldSeconds c).journal = c.journal ∧ (takeHoldSeconds c).check = c.check
      ∧ (takeHoldSeconds c).keypad = c.keypad ∧ (takeHoldSeconds c).service = c.service
      ∧ (takeHoldSeconds c).draws = c.draws ∧ (takeHoldSeconds c).switch.known = c.switch.known
      ∧ (takeHoldSeconds c).switch.overRun = c.switch.overRun := by
  unfold takeHoldSeconds; split <;> simp [endHold]

/-- All that taking the second events that end a trip hold can do: nothing, or the hold ends (R76). -/
theorem takeHoldSeconds_cases (c : Controller) :
    takeHoldSeconds c = c
      ∨ c.switch.state = .tripHold ∧ c.switch.timer.getD 0 < c.inTransit.count .secondEventSwitch
        ∧ takeHoldSeconds c = { c with
          switch := { c.switch with state := switchFor c.switch.known, timer := none }
          inTransit := c.inTransit.filter (fun i => !decide (i = .secondEventSwitch)) } := by
  unfold takeHoldSeconds
  split
  · next h => exact .inr ⟨h.1, h.2, rfl⟩
  · exact .inl rfl

/-- A switch that is in no trip hold takes no second event before a sample is judged. -/
theorem takeHoldSeconds_idle {c : Controller} (h : c.switch.state ≠ .tripHold) : takeHoldSeconds c = c := by
  simp [takeHoldSeconds, h]

@[simp] theorem requestJudged_frame (c : Controller) :
    (requestJudged c).power = c.power ∧ (requestJudged c).params = c.params
      ∧ (requestJudged c).decommissioning = c.decommissioning ∧ (requestJudged c).account = c.account
      ∧ (requestJudged c).meter.mode = c.meter.mode ∧ (requestJudged c).meter.chargeRem = c.meter.chargeRem
      ∧ (requestJudged c).meter.lifetimeRem = c.meter.lifetimeRem ∧ (requestJudged c).meter.lastGood = c.meter.lastGood
      ∧ (requestJudged c).meter.misses = c.meter.misses ∧ (requestJudged c).meter.band = c.meter.band
      ∧ (requestJudged c).meter.lowRun = c.meter.lowRun ∧ (requestJudged c).meter.recoveryRun = c.meter.recoveryRun
      ∧ (requestJudged c).meter.known = c.meter.known ∧ (requestJudged c).switch.known = c.switch.known
      ∧ (requestJudged c).switch.overRun = c.switch.overRun
      ∧ (requestJudged c).clock = c.clock ∧ (requestJudged c).store = c.store ∧ (requestJudged c).exchange = c.exchange
      ∧ (requestJudged c).radio = c.radio ∧ (requestJudged c).channel = c.channel ∧ (requestJudged c).journal = c.journal
      ∧ (requestJudged c).check = c.check ∧ (requestJudged c).keypad = c.keypad ∧ (requestJudged c).service = c.service
      ∧ (requestJudged c).draws = c.draws := by
  unfold requestJudged takeHoldSeconds; split <;> simp [endHold]

@[simp] theorem takeReply_frame (b1 b2 b3 b4 : Byte) (c : Controller) :
    (takeReply b1 b2 b3 b4 c).power = c.power ∧ (takeReply b1 b2 b3 b4 c).params = c.params
      ∧ (takeReply b1 b2 b3 b4 c).decommissioning = c.decommissioning ∧ (takeReply b1 b2 b3 b4 c).account = c.account
      ∧ (takeReply b1 b2 b3 b4 c).meter.mode = c.meter.mode ∧ (takeReply b1 b2 b3 b4 c).meter.known = c.meter.known
      ∧ (takeReply b1 b2 b3 b4 c).switch.known = c.switch.known ∧ (takeReply b1 b2 b3 b4 c).clock = c.clock
      ∧ (takeReply b1 b2 b3 b4 c).switch.overRun = c.switch.overRun
      ∧ (takeReply b1 b2 b3 b4 c).store = c.store ∧ (takeReply b1 b2 b3 b4 c).exchange.hailer = c.exchange.hailer
      ∧ (takeReply b1 b2 b3 b4 c).exchange.number = c.exchange.number
      ∧ (takeReply b1 b2 b3 b4 c).exchange.hailTimer = c.exchange.hailTimer
      ∧ (takeReply b1 b2 b3 b4 c).exchange.askQueue = c.exchange.askQueue
      ∧ (takeReply b1 b2 b3 b4 c).exchange.service = c.exchange.service
      ∧ (takeReply b1 b2 b3 b4 c).exchange.tally = c.exchange.tally
      ∧ (takeReply b1 b2 b3 b4 c).exchange.asker = c.exchange.asker ∧ (takeReply b1 b2 b3 b4 c).radio = c.radio
      ∧ (takeReply b1 b2 b3 b4 c).channel = c.channel ∧ (takeReply b1 b2 b3 b4 c).journal = c.journal
      ∧ (takeReply b1 b2 b3 b4 c).check = c.check ∧ (takeReply b1 b2 b3 b4 c).keypad = c.keypad
      ∧ (takeReply b1 b2 b3 b4 c).service = c.service ∧ (takeReply b1 b2 b3 b4 c).draws = c.draws := by
  unfold takeReply; repeat' split
  all_goals simp

@[simp] theorem takeWindowEnd_frame (c : Controller) :
    (takeWindowEnd c).power = c.power ∧ (takeWindowEnd c).params = c.params
      ∧ (takeWindowEnd c).decommissioning = c.decommissioning ∧ (takeWindowEnd c).account = c.account
      ∧ (takeWindowEnd c).meter.mode = c.meter.mode ∧ (takeWindowEnd c).meter.lastGood = c.meter.lastGood
      ∧ (takeWindowEnd c).meter.band = c.meter.band ∧ (takeWindowEnd c).meter.lowRun = c.meter.lowRun
      ∧ (takeWindowEnd c).meter.recoveryRun = c.meter.recoveryRun ∧ (takeWindowEnd c).meter.known = c.meter.known
      ∧ (takeWindowEnd c).switch.known = c.switch.known ∧ (takeWindowEnd c).clock = c.clock ∧ (takeWindowEnd c).store = c.store
      ∧ (takeWindowEnd c).switch.overRun = c.switch.overRun
      ∧ (takeWindowEnd c).exchange = c.exchange ∧ (takeWindowEnd c).radio = c.radio
      ∧ (takeWindowEnd c).channel = c.channel ∧ (takeWindowEnd c).journal = c.journal ∧ (takeWindowEnd c).check = c.check
      ∧ (takeWindowEnd c).keypad = c.keypad ∧ (takeWindowEnd c).service = c.service ∧ (takeWindowEnd c).draws = c.draws := by
  unfold takeWindowEnd; repeat' split
  all_goals simp

@[simp] theorem takeMeterSecond_frame (c : Controller) :
    (takeMeterSecond c).power = c.power ∧ (takeMeterSecond c).params = c.params
      ∧ (takeMeterSecond c).decommissioning = c.decommissioning ∧ (takeMeterSecond c).account = c.account
      ∧ (takeMeterSecond c).meter.mode = c.meter.mode ∧ (takeMeterSecond c).meter.lastGood = c.meter.lastGood
      ∧ (takeMeterSecond c).meter.band = c.meter.band ∧ (takeMeterSecond c).meter.lowRun = c.meter.lowRun
      ∧ (takeMeterSecond c).meter.recoveryRun = c.meter.recoveryRun ∧ (takeMeterSecond c).meter.known = c.meter.known
      ∧ (takeMeterSecond c).switch.known = c.switch.known ∧ (takeMeterSecond c).clock = c.clock ∧ (takeMeterSecond c).store = c.store
      ∧ (takeMeterSecond c).switch.overRun = c.switch.overRun
      ∧ (takeMeterSecond c).exchange = c.exchange ∧ (takeMeterSecond c).radio = c.radio
      ∧ (takeMeterSecond c).channel = c.channel ∧ (takeMeterSecond c).journal = c.journal
      ∧ (takeMeterSecond c).check = c.check ∧ (takeMeterSecond c).keypad = c.keypad
      ∧ (takeMeterSecond c).service = c.service ∧ (takeMeterSecond c).draws = c.draws := by
  unfold takeMeterSecond; dsimp only; repeat' split
  all_goals simp

/-! ### Switch.lean -/

@[simp] theorem takeAccountState_frame (st : AccountState) (c : Controller) :
    (takeAccountState st c).power = c.power ∧ (takeAccountState st c).params = c.params
      ∧ (takeAccountState st c).decommissioning = c.decommissioning ∧ (takeAccountState st c).account = c.account
      ∧ (takeAccountState st c).meter = c.meter ∧ (takeAccountState st c).clock = c.clock
      ∧ (takeAccountState st c).store = c.store ∧ (takeAccountState st c).exchange = c.exchange
      ∧ (takeAccountState st c).radio = c.radio ∧ (takeAccountState st c).channel = c.channel
      ∧ (takeAccountState st c).journal = c.journal ∧ (takeAccountState st c).check = c.check
      ∧ (takeAccountState st c).keypad = c.keypad ∧ (takeAccountState st c).service = c.service
      ∧ (takeAccountState st c).inTransit = c.inTransit ∧ (takeAccountState st c).draws = c.draws := by
  unfold takeAccountState; repeat' split
  all_goals simp

@[simp] theorem trip_frame (c : Controller) :
    (trip c).power = c.power ∧ (trip c).params = c.params ∧ (trip c).decommissioning = c.decommissioning
      ∧ (trip c).account = c.account ∧ (trip c).meter = c.meter ∧ (trip c).clock = c.clock ∧ (trip c).store = c.store
      ∧ (trip c).exchange = c.exchange ∧ (trip c).radio = c.radio ∧ (trip c).channel = c.channel
      ∧ (trip c).journal = c.journal ∧ (trip c).check = c.check ∧ (trip c).keypad = c.keypad
      ∧ (trip c).service = c.service ∧ (trip c).draws = c.draws := by
  simp [trip]

@[simp] theorem takeVerdict_frame (v : CapVerdict) (c : Controller) :
    (takeVerdict v c).power = c.power ∧ (takeVerdict v c).params = c.params
      ∧ (takeVerdict v c).decommissioning = c.decommissioning ∧ (takeVerdict v c).account = c.account
      ∧ (takeVerdict v c).meter = c.meter ∧ (takeVerdict v c).clock = c.clock ∧ (takeVerdict v c).store = c.store
      ∧ (takeVerdict v c).exchange = c.exchange ∧ (takeVerdict v c).radio = c.radio
      ∧ (takeVerdict v c).channel = c.channel ∧ (takeVerdict v c).journal = c.journal ∧ (takeVerdict v c).check = c.check
      ∧ (takeVerdict v c).keypad = c.keypad ∧ (takeVerdict v c).service = c.service ∧ (takeVerdict v c).draws = c.draws := by
  unfold takeVerdict; dsimp only; repeat' split
  all_goals simp

@[simp] theorem endHold_frame (c : Controller) :
    (endHold c).power = c.power ∧ (endHold c).params = c.params ∧ (endHold c).decommissioning = c.decommissioning
      ∧ (endHold c).account = c.account ∧ (endHold c).meter = c.meter ∧ (endHold c).clock = c.clock
      ∧ (endHold c).store = c.store ∧ (endHold c).exchange = c.exchange ∧ (endHold c).radio = c.radio
      ∧ (endHold c).channel = c.channel ∧ (endHold c).journal = c.journal ∧ (endHold c).check = c.check
      ∧ (endHold c).keypad = c.keypad ∧ (endHold c).service = c.service ∧ (endHold c).inTransit = c.inTransit
      ∧ (endHold c).draws = c.draws := by
  exact ⟨rfl, rfl, rfl, rfl, rfl, rfl, rfl, rfl, rfl, rfl, rfl, rfl, rfl, rfl, rfl, rfl⟩

@[simp] theorem takeSwitchSecond_frame (c : Controller) :
    (takeSwitchSecond c).power = c.power ∧ (takeSwitchSecond c).params = c.params
      ∧ (takeSwitchSecond c).decommissioning = c.decommissioning ∧ (takeSwitchSecond c).account = c.account
      ∧ (takeSwitchSecond c).meter = c.meter ∧ (takeSwitchSecond c).clock = c.clock ∧ (takeSwitchSecond c).store = c.store
      ∧ (takeSwitchSecond c).exchange = c.exchange ∧ (takeSwitchSecond c).radio = c.radio
      ∧ (takeSwitchSecond c).channel = c.channel ∧ (takeSwitchSecond c).journal = c.journal
      ∧ (takeSwitchSecond c).check = c.check ∧ (takeSwitchSecond c).keypad = c.keypad
      ∧ (takeSwitchSecond c).service = c.service ∧ (takeSwitchSecond c).inTransit = c.inTransit
      ∧ (takeSwitchSecond c).draws = c.draws := by
  unfold takeSwitchSecond; dsimp only; repeat' split
  all_goals simp

@[simp] theorem takeHoldEnd_frame (c : Controller) :
    (takeHoldEnd c).power = c.power ∧ (takeHoldEnd c).params = c.params
      ∧ (takeHoldEnd c).decommissioning = c.decommissioning ∧ (takeHoldEnd c).account = c.account
      ∧ (takeHoldEnd c).meter = c.meter ∧ (takeHoldEnd c).clock = c.clock ∧ (takeHoldEnd c).store = c.store
      ∧ (takeHoldEnd c).exchange = c.exchange ∧ (takeHoldEnd c).radio = c.radio ∧ (takeHoldEnd c).channel = c.channel
      ∧ (takeHoldEnd c).journal = c.journal ∧ (takeHoldEnd c).check = c.check ∧ (takeHoldEnd c).keypad = c.keypad
      ∧ (takeHoldEnd c).service = c.service ∧ (takeHoldEnd c).draws = c.draws := by
  unfold takeHoldEnd; repeat' split
  all_goals simp

/-! ### Clock.lean -/

@[simp] theorem emitRollover_frame (d : Nat) (c : Controller) :
    (emitRollover d c).power = c.power ∧ (emitRollover d c).params = c.params
      ∧ (emitRollover d c).decommissioning = c.decommissioning ∧ (emitRollover d c).account = c.account
      ∧ (emitRollover d c).meter = c.meter ∧ (emitRollover d c).switch = c.switch ∧ (emitRollover d c).clock = c.clock
      ∧ (emitRollover d c).store = c.store ∧ (emitRollover d c).exchange = c.exchange ∧ (emitRollover d c).radio = c.radio
      ∧ (emitRollover d c).channel = c.channel ∧ (emitRollover d c).journal = c.journal
      ∧ (emitRollover d c).check = c.check ∧ (emitRollover d c).keypad = c.keypad ∧ (emitRollover d c).service = c.service
      ∧ (emitRollover d c).draws = c.draws := by
  simp [emitRollover]

@[simp] theorem emitSecond_frame (c : Controller) :
    (emitSecond c).power = c.power ∧ (emitSecond c).params = c.params ∧ (emitSecond c).decommissioning = c.decommissioning
      ∧ (emitSecond c).account = c.account ∧ (emitSecond c).meter = c.meter ∧ (emitSecond c).switch = c.switch
      ∧ (emitSecond c).clock = c.clock ∧ (emitSecond c).store = c.store ∧ (emitSecond c).exchange = c.exchange
      ∧ (emitSecond c).radio = c.radio ∧ (emitSecond c).channel = c.channel ∧ (emitSecond c).journal = c.journal
      ∧ (emitSecond c).check = c.check ∧ (emitSecond c).keypad = c.keypad ∧ (emitSecond c).service = c.service
      ∧ (emitSecond c).draws = c.draws := by
  simp [emitSecond]

@[simp] theorem takeWholeSecond_frame (c : Controller) :
    (takeWholeSecond c).power = c.power ∧ (takeWholeSecond c).params = c.params
      ∧ (takeWholeSecond c).decommissioning = c.decommissioning ∧ (takeWholeSecond c).account = c.account
      ∧ (takeWholeSecond c).meter = c.meter ∧ (takeWholeSecond c).switch = c.switch ∧ (takeWholeSecond c).store = c.store
      ∧ (takeWholeSecond c).exchange = c.exchange ∧ (takeWholeSecond c).radio = c.radio
      ∧ (takeWholeSecond c).channel = c.channel ∧ (takeWholeSecond c).journal = c.journal
      ∧ (takeWholeSecond c).check = c.check ∧ (takeWholeSecond c).keypad = c.keypad
      ∧ (takeWholeSecond c).service = c.service ∧ (takeWholeSecond c).draws = c.draws := by
  unfold takeWholeSecond; dsimp only; repeat' split
  all_goals simp

@[simp] theorem setsTime_frame (x : Bool) (d n : Nat) (st : TimeState) (c : Controller) :
    (setsTime x d n st c).power = c.power ∧ (setsTime x d n st c).params = c.params
      ∧ (setsTime x d n st c).decommissioning = c.decommissioning ∧ (setsTime x d n st c).account = c.account
      ∧ (setsTime x d n st c).meter = c.meter ∧ (setsTime x d n st c).switch = c.switch
      ∧ (setsTime x d n st c).store = c.store ∧ (setsTime x d n st c).exchange = c.exchange
      ∧ (setsTime x d n st c).radio = c.radio ∧ (setsTime x d n st c).channel = c.channel
      ∧ (setsTime x d n st c).journal = c.journal ∧ (setsTime x d n st c).check = c.check
      ∧ (setsTime x d n st c).keypad = c.keypad ∧ (setsTime x d n st c).service = c.service
      ∧ (setsTime x d n st c).draws = c.draws := by
  unfold setsTime; dsimp only; repeat' split
  all_goals simp

@[simp] theorem recordCandidate_frame (p d n : Nat) (c : Controller) :
    (recordCandidate p d n c).power = c.power ∧ (recordCandidate p d n c).params = c.params
      ∧ (recordCandidate p d n c).decommissioning = c.decommissioning ∧ (recordCandidate p d n c).account = c.account
      ∧ (recordCandidate p d n c).meter = c.meter ∧ (recordCandidate p d n c).switch = c.switch
      ∧ (recordCandidate p d n c).store = c.store ∧ (recordCandidate p d n c).exchange = c.exchange
      ∧ (recordCandidate p d n c).radio = c.radio ∧ (recordCandidate p d n c).channel = c.channel
      ∧ (recordCandidate p d n c).journal = c.journal ∧ (recordCandidate p d n c).check = c.check
      ∧ (recordCandidate p d n c).keypad = c.keypad ∧ (recordCandidate p d n c).service = c.service
      ∧ (recordCandidate p d n c).inTransit = c.inTransit ∧ (recordCandidate p d n c).draws = c.draws := by
  exact ⟨rfl, rfl, rfl, rfl, rfl, rfl, rfl, rfl, rfl, rfl, rfl, rfl, rfl, rfl, rfl, rfl⟩

@[simp] theorem takePeer_frame (p d n : Nat) (c : Controller) :
    (takePeer p d n c).power = c.power ∧ (takePeer p d n c).params = c.params
      ∧ (takePeer p d n c).decommissioning = c.decommissioning ∧ (takePeer p d n c).account = c.account
      ∧ (takePeer p d n c).meter = c.meter ∧ (takePeer p d n c).switch = c.switch ∧ (takePeer p d n c).store = c.store
      ∧ (takePeer p d n c).exchange = c.exchange ∧ (takePeer p d n c).radio = c.radio
      ∧ (takePeer p d n c).channel = c.channel ∧ (takePeer p d n c).journal = c.journal
      ∧ (takePeer p d n c).check = c.check ∧ (takePeer p d n c).keypad = c.keypad ∧ (takePeer p d n c).service = c.service
      ∧ (takePeer p d n c).draws = c.draws := by
  unfold takePeer; repeat' split
  all_goals simp

@[simp] theorem takeUsableHail_frame (p : Nat) (g : Bool) (d n : Nat) (c : Controller) :
    (takeUsableHail p g d n c).power = c.power ∧ (takeUsableHail p g d n c).params = c.params
      ∧ (takeUsableHail p g d n c).decommissioning = c.decommissioning ∧ (takeUsableHail p g d n c).account = c.account
      ∧ (takeUsableHail p g d n c).meter = c.meter ∧ (takeUsableHail p g d n c).switch = c.switch
      ∧ (takeUsableHail p g d n c).store = c.store ∧ (takeUsableHail p g d n c).exchange = c.exchange
      ∧ (takeUsableHail p g d n c).radio = c.radio ∧ (takeUsableHail p g d n c).channel = c.channel
      ∧ (takeUsableHail p g d n c).journal = c.journal ∧ (takeUsableHail p g d n c).check = c.check
      ∧ (takeUsableHail p g d n c).keypad = c.keypad ∧ (takeUsableHail p g d n c).service = c.service
      ∧ (takeUsableHail p g d n c).draws = c.draws := by
  unfold takeUsableHail; repeat' split
  all_goals simp

@[simp] theorem takeHailTime_frame (p : Nat) (g t : Bool) (d n : Nat) (c : Controller) :
    (takeHailTime p g t d n c).power = c.power ∧ (takeHailTime p g t d n c).params = c.params
      ∧ (takeHailTime p g t d n c).decommissioning = c.decommissioning ∧ (takeHailTime p g t d n c).account = c.account
      ∧ (takeHailTime p g t d n c).meter = c.meter ∧ (takeHailTime p g t d n c).switch = c.switch
      ∧ (takeHailTime p g t d n c).store = c.store ∧ (takeHailTime p g t d n c).exchange = c.exchange
      ∧ (takeHailTime p g t d n c).radio = c.radio ∧ (takeHailTime p g t d n c).channel = c.channel
      ∧ (takeHailTime p g t d n c).journal = c.journal ∧ (takeHailTime p g t d n c).check = c.check
      ∧ (takeHailTime p g t d n c).keypad = c.keypad ∧ (takeHailTime p g t d n c).service = c.service
      ∧ (takeHailTime p g t d n c).draws = c.draws := by
  unfold takeHailTime; repeat' split
  all_goals simp

@[simp] theorem resetAbsence_frame (c : Controller) :
    (resetAbsence c).power = c.power ∧ (resetAbsence c).params = c.params
      ∧ (resetAbsence c).decommissioning = c.decommissioning ∧ (resetAbsence c).account = c.account
      ∧ (resetAbsence c).meter = c.meter ∧ (resetAbsence c).switch = c.switch ∧ (resetAbsence c).store = c.store
      ∧ (resetAbsence c).exchange = c.exchange ∧ (resetAbsence c).radio = c.radio ∧ (resetAbsence c).channel = c.channel
      ∧ (resetAbsence c).journal = c.journal ∧ (resetAbsence c).check = c.check ∧ (resetAbsence c).keypad = c.keypad
      ∧ (resetAbsence c).service = c.service ∧ (resetAbsence c).inTransit = c.inTransit ∧ (resetAbsence c).draws = c.draws := by
  exact ⟨rfl, rfl, rfl, rfl, rfl, rfl, rfl, rfl, rfl, rfl, rfl, rfl, rfl, rfl, rfl, rfl⟩

/-! ### Channel.lean -/

@[simp] theorem setBusy_frame (b : Bool) (c : Controller) :
    (setBusy b c).power.mainOn = c.power.mainOn ∧ (setBusy b c).power.alwaysOn = c.power.alwaysOn
      ∧ (setBusy b c).power.writeSafe = c.power.writeSafe ∧ (setBusy b c).params = c.params
      ∧ (setBusy b c).decommissioning = c.decommissioning ∧ (setBusy b c).account = c.account
      ∧ (setBusy b c).meter = c.meter ∧ (setBusy b c).switch = c.switch ∧ (setBusy b c).clock = c.clock
      ∧ (setBusy b c).store = c.store ∧ (setBusy b c).exchange = c.exchange ∧ (setBusy b c).radio = c.radio
      ∧ (setBusy b c).channel = c.channel ∧ (setBusy b c).journal = c.journal ∧ (setBusy b c).check = c.check
      ∧ (setBusy b c).keypad = c.keypad ∧ (setBusy b c).service = c.service ∧ (setBusy b c).inTransit = c.inTransit
      ∧ (setBusy b c).draws = c.draws := by
  exact ⟨rfl, rfl, rfl, rfl, rfl, rfl, rfl, rfl, rfl, rfl, rfl, rfl, rfl, rfl, rfl, rfl, rfl, rfl, rfl⟩

@[simp] theorem wake_frame (c : Controller) :
    (wake c).power = c.power ∧ (wake c).params = c.params ∧ (wake c).decommissioning = c.decommissioning
      ∧ (wake c).account = c.account ∧ (wake c).meter = c.meter ∧ (wake c).switch = c.switch ∧ (wake c).clock = c.clock
      ∧ (wake c).store = c.store ∧ (wake c).exchange = c.exchange ∧ (wake c).radio.active = c.radio.active
      ∧ (wake c).radio.reception = c.radio.reception ∧ (wake c).radio.discards = c.radio.discards
      ∧ (wake c).radio.onAir = c.radio.onAir ∧ (wake c).channel = c.channel ∧ (wake c).journal = c.journal
      ∧ (wake c).check = c.check ∧ (wake c).keypad = c.keypad ∧ (wake c).service = c.service
      ∧ (wake c).inTransit = c.inTransit ∧ (wake c).draws = c.draws := by
  unfold wake; dsimp only; repeat' split
  all_goals simp

@[simp] theorem placeFrame_frame (k : FrameKind) (f : SlotFrame) (d : Option Nat) (c : Controller) :
    (placeFrame k f d c).power = c.power ∧ (placeFrame k f d c).params = c.params
      ∧ (placeFrame k f d c).decommissioning = c.decommissioning ∧ (placeFrame k f d c).account = c.account
      ∧ (placeFrame k f d c).meter = c.meter ∧ (placeFrame k f d c).switch = c.switch
      ∧ (placeFrame k f d c).clock = c.clock ∧ (placeFrame k f d c).store = c.store
      ∧ (placeFrame k f d c).exchange = c.exchange ∧ (placeFrame k f d c).radio.active = c.radio.active
      ∧ (placeFrame k f d c).radio.reception = c.radio.reception ∧ (placeFrame k f d c).radio.discards = c.radio.discards
      ∧ (placeFrame k f d c).radio.onAir = c.radio.onAir ∧ (placeFrame k f d c).journal = c.journal
      ∧ (placeFrame k f d c).check = c.check ∧ (placeFrame k f d c).keypad = c.keypad
      ∧ (placeFrame k f d c).service = c.service ∧ (placeFrame k f d c).inTransit = c.inTransit
      ∧ (placeFrame k f d c).draws = c.draws := by
  simp [placeFrame]

@[simp] theorem readForFrame_frame (f : SlotFrame) (c : Controller) :
    (readForFrame f c).power = c.power ∧ (readForFrame f c).params = c.params
      ∧ (readForFrame f c).decommissioning = c.decommissioning ∧ (readForFrame f c).account.live = c.account.live
      ∧ (readForFrame f c).account.staged = c.account.staged ∧ (readForFrame f c).account.flight = c.account.flight
      ∧ (readForFrame f c).account.state = c.account.state ∧ (readForFrame f c).account.conditions = c.account.conditions
      ∧ (readForFrame f c).account.metered = c.account.metered ∧ (readForFrame f c).meter = c.meter
      ∧ (readForFrame f c).switch = c.switch ∧ (readForFrame f c).clock = c.clock
      ∧ (readForFrame f c).store.arrivals = c.store.arrivals ∧ (readForFrame f c).store.cursor = c.store.cursor
      ∧ (readForFrame f c).exchange = c.exchange ∧ (readForFrame f c).radio = c.radio
      ∧ (readForFrame f c).channel = c.channel ∧ (readForFrame f c).journal = c.journal
      ∧ (readForFrame f c).keypad = c.keypad ∧ (readForFrame f c).service = c.service ∧ (readForFrame f c).draws = c.draws := by
  unfold readForFrame; repeat' split
  all_goals simp

@[simp] theorem beginTransmission_frame (k : FrameKind) (t : TxSlot) (c : Controller) :
    (beginTransmission k t c).power = c.power ∧ (beginTransmission k t c).params = c.params
      ∧ (beginTransmission k t c).decommissioning = c.decommissioning
      ∧ (beginTransmission k t c).account.live = c.account.live
      ∧ (beginTransmission k t c).account.staged = c.account.staged
      ∧ (beginTransmission k t c).account.flight = c.account.flight
      ∧ (beginTransmission k t c).account.state = c.account.state
      ∧ (beginTransmission k t c).account.conditions = c.account.conditions
      ∧ (beginTransmission k t c).account.metered = c.account.metered ∧ (beginTransmission k t c).meter = c.meter
      ∧ (beginTransmission k t c).switch = c.switch ∧ (beginTransmission k t c).clock = c.clock
      ∧ (beginTransmission k t c).store.arrivals = c.store.arrivals
      ∧ (beginTransmission k t c).store.cursor = c.store.cursor ∧ (beginTransmission k t c).exchange = c.exchange
      ∧ (beginTransmission k t c).radio.active = c.radio.active
      ∧ (beginTransmission k t c).radio.reception = c.radio.reception
      ∧ (beginTransmission k t c).radio.discards = c.radio.discards ∧ (beginTransmission k t c).journal = c.journal
      ∧ (beginTransmission k t c).keypad = c.keypad ∧ (beginTransmission k t c).service = c.service
      ∧ (beginTransmission k t c).draws = c.draws := by
  simp [beginTransmission]

@[simp] theorem backOff_frame (k : FrameKind) (t : TxSlot) (c : Controller) :
    (backOff k t c).power = c.power ∧ (backOff k t c).params = c.params
      ∧ (backOff k t c).decommissioning = c.decommissioning ∧ (backOff k t c).account = c.account
      ∧ (backOff k t c).meter = c.meter ∧ (backOff k t c).switch = c.switch ∧ (backOff k t c).clock = c.clock
      ∧ (backOff k t c).store = c.store ∧ (backOff k t c).exchange = c.exchange ∧ (backOff k t c).radio = c.radio
      ∧ (backOff k t c).journal = c.journal ∧ (backOff k t c).check = c.check ∧ (backOff k t c).keypad = c.keypad
      ∧ (backOff k t c).service = c.service ∧ (backOff k t c).inTransit = c.inTransit := by
  simp [backOff]

/-! ### Exchange.lean -/

@[simp] theorem composeHail_frame (c : Controller) :
    (composeHail c).power = c.power ∧ (composeHail c).params = c.params
      ∧ (composeHail c).decommissioning = c.decommissioning ∧ (composeHail c).account.live = c.account.live
      ∧ (composeHail c).account.staged = c.account.staged ∧ (composeHail c).account.flight = c.account.flight
      ∧ (composeHail c).account.state = c.account.state ∧ (composeHail c).account.conditions = c.account.conditions
      ∧ (composeHail c).account.metered = c.account.metered ∧ (composeHail c).meter = c.meter
      ∧ (composeHail c).switch = c.switch ∧ (composeHail c).clock = c.clock
      ∧ (composeHail c).store.arrivals = c.store.arrivals ∧ (composeHail c).exchange.hailTimer = c.exchange.hailTimer
      ∧ (composeHail c).exchange.tally = c.exchange.tally ∧ (composeHail c).exchange.asker = c.exchange.asker
      ∧ (composeHail c).exchange.suspended = c.exchange.suspended ∧ (composeHail c).radio.active = c.radio.active
      ∧ (composeHail c).radio.reception = c.radio.reception ∧ (composeHail c).radio.discards = c.radio.discards
      ∧ (composeHail c).radio.onAir = c.radio.onAir ∧ (composeHail c).journal = c.journal
      ∧ (composeHail c).keypad = c.keypad ∧ (composeHail c).service = c.service ∧ (composeHail c).draws = c.draws := by
  simp [composeHail]

@[simp] theorem readAsks_frame (c : Controller) :
    (readAsks c).power = c.power ∧ (readAsks c).params = c.params ∧ (readAsks c).decommissioning = c.decommissioning
      ∧ (readAsks c).account.live = c.account.live ∧ (readAsks c).account.staged = c.account.staged
      ∧ (readAsks c).account.flight = c.account.flight ∧ (readAsks c).account.state = c.account.state
      ∧ (readAsks c).account.conditions = c.account.conditions ∧ (readAsks c).account.metered = c.account.metered
      ∧ (readAsks c).meter = c.meter ∧ (readAsks c).switch = c.switch ∧ (readAsks c).clock = c.clock
      ∧ (readAsks c).store.arrivals = c.store.arrivals ∧ (readAsks c).store.cursor = c.store.cursor
      ∧ (readAsks c).exchange.hailer = c.exchange.hailer ∧ (readAsks c).exchange.number = c.exchange.number
      ∧ (readAsks c).exchange.hailTimer = c.exchange.hailTimer ∧ (readAsks c).exchange.deferred = c.exchange.deferred
      ∧ (readAsks c).exchange.service = c.exchange.service ∧ (readAsks c).exchange.tally = c.exchange.tally
      ∧ (readAsks c).exchange.asker = c.exchange.asker ∧ (readAsks c).exchange.outstanding = c.exchange.outstanding
      ∧ (readAsks c).exchange.suspended = c.exchange.suspended ∧ (readAsks c).radio = c.radio
      ∧ (readAsks c).channel = c.channel ∧ (readAsks c).journal = c.journal ∧ (readAsks c).keypad = c.keypad
      ∧ (readAsks c).service = c.service ∧ (readAsks c).draws = c.draws := by
  simp [readAsks]

@[simp] theorem hailerIdle_frame (c : Controller) :
    (hailerIdle c).power = c.power ∧ (hailerIdle c).params = c.params ∧ (hailerIdle c).decommissioning = c.decommissioning
      ∧ (hailerIdle c).account.live = c.account.live ∧ (hailerIdle c).account.staged = c.account.staged
      ∧ (hailerIdle c).account.flight = c.account.flight ∧ (hailerIdle c).account.state = c.account.state
      ∧ (hailerIdle c).account.conditions = c.account.conditions ∧ (hailerIdle c).account.metered = c.account.metered
      ∧ (hailerIdle c).meter = c.meter ∧ (hailerIdle c).switch = c.switch ∧ (hailerIdle c).clock = c.clock
      ∧ (hailerIdle c).store.arrivals = c.store.arrivals ∧ (hailerIdle c).exchange.hailTimer = c.exchange.hailTimer
      ∧ (hailerIdle c).exchange.tally = c.exchange.tally ∧ (hailerIdle c).exchange.asker = c.exchange.asker
      ∧ (hailerIdle c).exchange.suspended = c.exchange.suspended ∧ (hailerIdle c).radio.active = c.radio.active
      ∧ (hailerIdle c).radio.reception = c.radio.reception ∧ (hailerIdle c).radio.discards = c.radio.discards
      ∧ (hailerIdle c).radio.onAir = c.radio.onAir ∧ (hailerIdle c).journal = c.journal ∧ (hailerIdle c).keypad = c.keypad
      ∧ (hailerIdle c).service = c.service ∧ (hailerIdle c).draws = c.draws := by
  unfold hailerIdle; dsimp only; repeat' split
  all_goals simp

@[simp] theorem placeBurst_frame (v : Service) (c : Controller) :
    (placeBurst v c).power = c.power ∧ (placeBurst v c).params = c.params
      ∧ (placeBurst v c).decommissioning = c.decommissioning ∧ (placeBurst v c).account = c.account
      ∧ (placeBurst v c).meter = c.meter ∧ (placeBurst v c).switch = c.switch ∧ (placeBurst v c).clock = c.clock
      ∧ (placeBurst v c).store = c.store ∧ (placeBurst v c).exchange.number = c.exchange.number
      ∧ (placeBurst v c).exchange.hailTimer = c.exchange.hailTimer
      ∧ (placeBurst v c).exchange.askQueue = c.exchange.askQueue ∧ (placeBurst v c).exchange.tally = c.exchange.tally
      ∧ (placeBurst v c).exchange.asker = c.exchange.asker ∧ (placeBurst v c).exchange.suspended = c.exchange.suspended
      ∧ (placeBurst v c).radio.active = c.radio.active ∧ (placeBurst v c).radio.reception = c.radio.reception
      ∧ (placeBurst v c).radio.discards = c.radio.discards ∧ (placeBurst v c).radio.onAir = c.radio.onAir
      ∧ (placeBurst v c).journal = c.journal ∧ (placeBurst v c).check = c.check ∧ (placeBurst v c).keypad = c.keypad
      ∧ (placeBurst v c).service = c.service ∧ (placeBurst v c).inTransit = c.inTransit ∧ (placeBurst v c).draws = c.draws := by
  simp [placeBurst]

@[simp] theorem beginService_frame (q : AskEntry) (c : Controller) :
    (beginService q c).power = c.power ∧ (beginService q c).params = c.params
      ∧ (beginService q c).decommissioning = c.decommissioning ∧ (beginService q c).account.live = c.account.live
      ∧ (beginService q c).account.staged = c.account.staged ∧ (beginService q c).account.flight = c.account.flight
      ∧ (beginService q c).account.state = c.account.state ∧ (beginService q c).account.conditions = c.account.conditions
      ∧ (beginService q c).account.metered = c.account.metered ∧ (beginService q c).meter = c.meter
      ∧ (beginService q c).switch = c.switch ∧ (beginService q c).clock = c.clock
      ∧ (beginService q c).store.arrivals = c.store.arrivals ∧ (beginService q c).store.cursor = c.store.cursor
      ∧ (beginService q c).exchange.number = c.exchange.number
      ∧ (beginService q c).exchange.hailTimer = c.exchange.hailTimer
      ∧ (beginService q c).exchange.askQueue = c.exchange.askQueue ∧ (beginService q c).exchange.tally = c.exchange.tally
      ∧ (beginService q c).exchange.asker = c.exchange.asker
      ∧ (beginService q c).exchange.suspended = c.exchange.suspended ∧ (beginService q c).radio.active = c.radio.active
      ∧ (beginService q c).radio.reception = c.radio.reception ∧ (beginService q c).radio.discards = c.radio.discards
      ∧ (beginService q c).radio.onAir = c.radio.onAir ∧ (beginService q c).journal = c.journal
      ∧ (beginService q c).keypad = c.keypad ∧ (beginService q c).service = c.service ∧ (beginService q c).draws = c.draws := by
  simp [beginService]

@[simp] theorem serveFirst_frame (c : Controller) :
    (serveFirst c).power = c.power ∧ (serveFirst c).params = c.params ∧ (serveFirst c).decommissioning = c.decommissioning
      ∧ (serveFirst c).account.live = c.account.live ∧ (serveFirst c).account.staged = c.account.staged
      ∧ (serveFirst c).account.flight = c.account.flight ∧ (serveFirst c).account.state = c.account.state
      ∧ (serveFirst c).account.conditions = c.account.conditions ∧ (serveFirst c).account.metered = c.account.metered
      ∧ (serveFirst c).meter = c.meter ∧ (serveFirst c).switch = c.switch ∧ (serveFirst c).clock = c.clock
      ∧ (serveFirst c).store.arrivals = c.store.arrivals ∧ (serveFirst c).exchange.hailTimer = c.exchange.hailTimer
      ∧ (serveFirst c).exchange.tally = c.exchange.tally ∧ (serveFirst c).exchange.asker = c.exchange.asker
      ∧ (serveFirst c).exchange.suspended = c.exchange.suspended ∧ (serveFirst c).radio.active = c.radio.active
      ∧ (serveFirst c).radio.reception = c.radio.reception ∧ (serveFirst c).radio.discards = c.radio.discards
      ∧ (serveFirst c).radio.onAir = c.radio.onAir ∧ (serveFirst c).journal = c.journal ∧ (serveFirst c).keypad = c.keypad
      ∧ (serveFirst c).service = c.service ∧ (serveFirst c).draws = c.draws := by
  unfold serveFirst; dsimp only; repeat' split
  all_goals simp

@[simp] theorem serveNext_frame (c : Controller) :
    (serveNext c).power = c.power ∧ (serveNext c).params = c.params ∧ (serveNext c).decommissioning = c.decommissioning
      ∧ (serveNext c).account.live = c.account.live ∧ (serveNext c).account.staged = c.account.staged
      ∧ (serveNext c).account.flight = c.account.flight ∧ (serveNext c).account.state = c.account.state
      ∧ (serveNext c).account.conditions = c.account.conditions ∧ (serveNext c).account.metered = c.account.metered
      ∧ (serveNext c).meter = c.meter ∧ (serveNext c).switch = c.switch ∧ (serveNext c).clock = c.clock
      ∧ (serveNext c).store.arrivals = c.store.arrivals ∧ (serveNext c).exchange.hailTimer = c.exchange.hailTimer
      ∧ (serveNext c).exchange.tally = c.exchange.tally ∧ (serveNext c).exchange.asker = c.exchange.asker
      ∧ (serveNext c).exchange.suspended = c.exchange.suspended ∧ (serveNext c).radio.active = c.radio.active
      ∧ (serveNext c).radio.reception = c.radio.reception ∧ (serveNext c).radio.discards = c.radio.discards
      ∧ (serveNext c).radio.onAir = c.radio.onAir ∧ (serveNext c).journal = c.journal ∧ (serveNext c).keypad = c.keypad
      ∧ (serveNext c).service = c.service ∧ (serveNext c).draws = c.draws := by
  simp [serveNext]

@[simp] theorem tallyResidual_frame (v : Service) (c : Controller) :
    (tallyResidual v c).power = c.power ∧ (tallyResidual v c).params = c.params
      ∧ (tallyResidual v c).decommissioning = c.decommissioning ∧ (tallyResidual v c).account = c.account
      ∧ (tallyResidual v c).meter = c.meter ∧ (tallyResidual v c).switch = c.switch ∧ (tallyResidual v c).clock = c.clock
      ∧ (tallyResidual v c).store = c.store ∧ (tallyResidual v c).exchange.hailer = c.exchange.hailer
      ∧ (tallyResidual v c).exchange.number = c.exchange.number
      ∧ (tallyResidual v c).exchange.hailTimer = c.exchange.hailTimer
      ∧ (tallyResidual v c).exchange.askQueue = c.exchange.askQueue
      ∧ (tallyResidual v c).exchange.service = c.exchange.service ∧ (tallyResidual v c).exchange.asker = c.exchange.asker
      ∧ (tallyResidual v c).exchange.suspended = c.exchange.suspended ∧ (tallyResidual v c).radio = c.radio
      ∧ (tallyResidual v c).channel = c.channel ∧ (tallyResidual v c).journal = c.journal
      ∧ (tallyResidual v c).check = c.check ∧ (tallyResidual v c).keypad = c.keypad
      ∧ (tallyResidual v c).service = c.service ∧ (tallyResidual v c).inTransit = c.inTransit
      ∧ (tallyResidual v c).draws = c.draws := by
  exact ⟨rfl, rfl, rfl, rfl, rfl, rfl, rfl, rfl, rfl, rfl, rfl, rfl, rfl, rfl, rfl, rfl, rfl, rfl, rfl, rfl, rfl, rfl, rfl⟩

@[simp] theorem failAttempt_frame (c : Controller) :
    (failAttempt c).power = c.power ∧ (failAttempt c).params = c.params
      ∧ (failAttempt c).decommissioning = c.decommissioning ∧ (failAttempt c).account.live = c.account.live
      ∧ (failAttempt c).account.staged = c.account.staged ∧ (failAttempt c).account.flight = c.account.flight
      ∧ (failAttempt c).account.state = c.account.state ∧ (failAttempt c).account.conditions = c.account.conditions
      ∧ (failAttempt c).account.metered = c.account.metered ∧ (failAttempt c).meter = c.meter
      ∧ (failAttempt c).switch = c.switch ∧ (failAttempt c).clock = c.clock
      ∧ (failAttempt c).store.arrivals = c.store.arrivals ∧ (failAttempt c).exchange.hailTimer = c.exchange.hailTimer
      ∧ (failAttempt c).exchange.asker = c.exchange.asker ∧ (failAttempt c).exchange.suspended = c.exchange.suspended
      ∧ (failAttempt c).radio.active = c.radio.active ∧ (failAttempt c).radio.reception = c.radio.reception
      ∧ (failAttempt c).radio.discards = c.radio.discards ∧ (failAttempt c).radio.onAir = c.radio.onAir
      ∧ (failAttempt c).journal = c.journal ∧ (failAttempt c).keypad = c.keypad ∧ (failAttempt c).service = c.service
      ∧ (failAttempt c).draws = c.draws := by
  unfold failAttempt; repeat' split
  all_goals simp

@[simp] theorem acknowledged_frame (v : Service) (c : Controller) :
    (acknowledged v c).power = c.power ∧ (acknowledged v c).params = c.params
      ∧ (acknowledged v c).decommissioning = c.decommissioning ∧ (acknowledged v c).account.live = c.account.live
      ∧ (acknowledged v c).account.staged = c.account.staged ∧ (acknowledged v c).account.flight = c.account.flight
      ∧ (acknowledged v c).account.state = c.account.state ∧ (acknowledged v c).account.conditions = c.account.conditions
      ∧ (acknowledged v c).account.metered = c.account.metered ∧ (acknowledged v c).meter = c.meter
      ∧ (acknowledged v c).switch = c.switch ∧ (acknowledged v c).clock = c.clock
      ∧ (acknowledged v c).store.arrivals = c.store.arrivals
      ∧ (acknowledged v c).exchange.hailTimer = c.exchange.hailTimer
      ∧ (acknowledged v c).exchange.tally = c.exchange.tally ∧ (acknowledged v c).exchange.asker = c.exchange.asker
      ∧ (acknowledged v c).exchange.suspended = c.exchange.suspended ∧ (acknowledged v c).radio.active = c.radio.active
      ∧ (acknowledged v c).radio.reception = c.radio.reception ∧ (acknowledged v c).radio.discards = c.radio.discards
      ∧ (acknowledged v c).radio.onAir = c.radio.onAir ∧ (acknowledged v c).journal = c.journal
      ∧ (acknowledged v c).keypad = c.keypad ∧ (acknowledged v c).service = c.service ∧ (acknowledged v c).draws = c.draws := by
  unfold acknowledged; dsimp only; repeat' split
  all_goals simp

@[simp] theorem abandonDropped_frame (v : Service) (c : Controller) :
    (abandonDropped v c).power = c.power ∧ (abandonDropped v c).params = c.params
      ∧ (abandonDropped v c).decommissioning = c.decommissioning ∧ (abandonDropped v c).account.live = c.account.live
      ∧ (abandonDropped v c).account.staged = c.account.staged ∧ (abandonDropped v c).account.flight = c.account.flight
      ∧ (abandonDropped v c).account.state = c.account.state
      ∧ (abandonDropped v c).account.conditions = c.account.conditions
      ∧ (abandonDropped v c).account.metered = c.account.metered ∧ (abandonDropped v c).meter = c.meter
      ∧ (abandonDropped v c).switch = c.switch ∧ (abandonDropped v c).clock = c.clock
      ∧ (abandonDropped v c).store.arrivals = c.store.arrivals
      ∧ (abandonDropped v c).exchange.hailTimer = c.exchange.hailTimer
      ∧ (abandonDropped v c).exchange.asker = c.exchange.asker
      ∧ (abandonDropped v c).exchange.suspended = c.exchange.suspended
      ∧ (abandonDropped v c).radio.active = c.radio.active ∧ (abandonDropped v c).radio.reception = c.radio.reception
      ∧ (abandonDropped v c).radio.discards = c.radio.discards ∧ (abandonDropped v c).radio.onAir = c.radio.onAir
      ∧ (abandonDropped v c).journal = c.journal ∧ (abandonDropped v c).keypad = c.keypad
      ∧ (abandonDropped v c).service = c.service ∧ (abandonDropped v c).draws = c.draws := by
  unfold abandonDropped; dsimp only; repeat' split
  all_goals simp

@[simp] theorem readQueue_frame (c : Controller) :
    (readQueue c).power = c.power ∧ (readQueue c).params = c.params ∧ (readQueue c).decommissioning = c.decommissioning
      ∧ (readQueue c).account.live = c.account.live ∧ (readQueue c).account.staged = c.account.staged
      ∧ (readQueue c).account.flight = c.account.flight ∧ (readQueue c).account.state = c.account.state
      ∧ (readQueue c).account.conditions = c.account.conditions ∧ (readQueue c).account.metered = c.account.metered
      ∧ (readQueue c).meter = c.meter ∧ (readQueue c).switch = c.switch ∧ (readQueue c).clock = c.clock
      ∧ (readQueue c).store.arrivals = c.store.arrivals ∧ (readQueue c).exchange.hailTimer = c.exchange.hailTimer
      ∧ (readQueue c).exchange.asker = c.exchange.asker ∧ (readQueue c).exchange.suspended = c.exchange.suspended
      ∧ (readQueue c).radio.active = c.radio.active ∧ (readQueue c).radio.reception = c.radio.reception
      ∧ (readQueue c).radio.discards = c.radio.discards ∧ (readQueue c).radio.onAir = c.radio.onAir
      ∧ (readQueue c).journal = c.journal ∧ (readQueue c).keypad = c.keypad ∧ (readQueue c).service = c.service
      ∧ (readQueue c).draws = c.draws := by
  unfold readQueue; dsimp only; repeat' split
  all_goals simp

@[simp] theorem carryNotSent_frame (c : Controller) :
    (carryNotSent c).power = c.power ∧ (carryNotSent c).params = c.params
      ∧ (carryNotSent c).decommissioning = c.decommissioning ∧ (carryNotSent c).account.live = c.account.live
      ∧ (carryNotSent c).account.staged = c.account.staged ∧ (carryNotSent c).account.flight = c.account.flight
      ∧ (carryNotSent c).account.state = c.account.state ∧ (carryNotSent c).account.conditions = c.account.conditions
      ∧ (carryNotSent c).account.metered = c.account.metered ∧ (carryNotSent c).meter = c.meter
      ∧ (carryNotSent c).switch = c.switch ∧ (carryNotSent c).clock = c.clock
      ∧ (carryNotSent c).store.arrivals = c.store.arrivals ∧ (carryNotSent c).exchange.hailTimer = c.exchange.hailTimer
      ∧ (carryNotSent c).exchange.asker = c.exchange.asker ∧ (carryNotSent c).exchange.suspended = c.exchange.suspended
      ∧ (carryNotSent c).radio.active = c.radio.active ∧ (carryNotSent c).radio.reception = c.radio.reception
      ∧ (carryNotSent c).radio.discards = c.radio.discards ∧ (carryNotSent c).radio.onAir = c.radio.onAir
      ∧ (carryNotSent c).journal = c.journal ∧ (carryNotSent c).keypad = c.keypad ∧ (carryNotSent c).service = c.service
      ∧ (carryNotSent c).draws = c.draws := by
  unfold carryNotSent; dsimp only; repeat' split
  all_goals simp

@[simp] theorem discardAsk_frame (c : Controller) :
    (discardAsk c).power = c.power ∧ (discardAsk c).params = c.params ∧ (discardAsk c).decommissioning = c.decommissioning
      ∧ (discardAsk c).account = c.account ∧ (discardAsk c).meter = c.meter ∧ (discardAsk c).switch = c.switch
      ∧ (discardAsk c).clock = c.clock ∧ (discardAsk c).store = c.store
      ∧ (discardAsk c).exchange.hailer = c.exchange.hailer ∧ (discardAsk c).exchange.number = c.exchange.number
      ∧ (discardAsk c).exchange.hailTimer = c.exchange.hailTimer ∧ (discardAsk c).exchange.askQueue = c.exchange.askQueue
      ∧ (discardAsk c).exchange.service = c.exchange.service ∧ (discardAsk c).exchange.tally = c.exchange.tally
      ∧ (discardAsk c).exchange.suspended = c.exchange.suspended ∧ (discardAsk c).radio = c.radio
      ∧ (discardAsk c).channel = c.channel ∧ (discardAsk c).journal = c.journal ∧ (discardAsk c).check = c.check
      ∧ (discardAsk c).keypad = c.keypad ∧ (discardAsk c).service = c.service ∧ (discardAsk c).inTransit = c.inTransit
      ∧ (discardAsk c).draws = c.draws := by
  exact ⟨rfl, rfl, rfl, rfl, rfl, rfl, rfl, rfl, rfl, rfl, rfl, rfl, rfl, rfl, rfl, rfl, rfl, rfl, rfl, rfl, rfl, rfl, rfl⟩

@[simp] theorem notSent_frame (k : FrameKind) (c : Controller) :
    (notSent k c).power = c.power ∧ (notSent k c).params = c.params ∧ (notSent k c).decommissioning = c.decommissioning
      ∧ (notSent k c).account.live = c.account.live ∧ (notSent k c).account.staged = c.account.staged
      ∧ (notSent k c).account.flight = c.account.flight ∧ (notSent k c).account.state = c.account.state
      ∧ (notSent k c).account.conditions = c.account.conditions ∧ (notSent k c).account.metered = c.account.metered
      ∧ (notSent k c).meter = c.meter ∧ (notSent k c).switch = c.switch ∧ (notSent k c).clock = c.clock
      ∧ (notSent k c).store.arrivals = c.store.arrivals ∧ (notSent k c).exchange.hailTimer = c.exchange.hailTimer
      ∧ (notSent k c).exchange.suspended = c.exchange.suspended ∧ (notSent k c).radio.active = c.radio.active
      ∧ (notSent k c).radio.reception = c.radio.reception ∧ (notSent k c).radio.discards = c.radio.discards
      ∧ (notSent k c).radio.onAir = c.radio.onAir ∧ (notSent k c).journal = c.journal ∧ (notSent k c).keypad = c.keypad
      ∧ (notSent k c).service = c.service ∧ (notSent k c).draws = c.draws := by
  unfold notSent; repeat' split
  all_goals simp

@[simp] theorem askSent_frame (c : Controller) :
    (askSent c).power = c.power ∧ (askSent c).params = c.params ∧ (askSent c).decommissioning = c.decommissioning
      ∧ (askSent c).account = c.account ∧ (askSent c).meter = c.meter ∧ (askSent c).switch = c.switch
      ∧ (askSent c).clock = c.clock ∧ (askSent c).store = c.store ∧ (askSent c).exchange.hailer = c.exchange.hailer
      ∧ (askSent c).exchange.number = c.exchange.number ∧ (askSent c).exchange.hailTimer = c.exchange.hailTimer
      ∧ (askSent c).exchange.askQueue = c.exchange.askQueue ∧ (askSent c).exchange.service = c.exchange.service
      ∧ (askSent c).exchange.tally = c.exchange.tally ∧ (askSent c).exchange.suspended = c.exchange.suspended
      ∧ (askSent c).radio = c.radio ∧ (askSent c).channel = c.channel ∧ (askSent c).journal = c.journal
      ∧ (askSent c).check = c.check ∧ (askSent c).keypad = c.keypad ∧ (askSent c).service = c.service
      ∧ (askSent c).inTransit = c.inTransit ∧ (askSent c).draws = c.draws := by
  exact ⟨rfl, rfl, rfl, rfl, rfl, rfl, rfl, rfl, rfl, rfl, rfl, rfl, rfl, rfl, rfl, rfl, rfl, rfl, rfl, rfl, rfl, rfl, rfl⟩

@[simp] theorem carrySent_frame (f : CarryFrame) (c : Controller) :
    (carrySent f c).power = c.power ∧ (carrySent f c).params = c.params
      ∧ (carrySent f c).decommissioning = c.decommissioning ∧ (carrySent f c).account.live = c.account.live
      ∧ (carrySent f c).account.staged = c.account.staged ∧ (carrySent f c).account.flight = c.account.flight
      ∧ (carrySent f c).account.state = c.account.state ∧ (carrySent f c).account.conditions = c.account.conditions
      ∧ (carrySent f c).account.metered = c.account.metered ∧ (carrySent f c).meter = c.meter
      ∧ (carrySent f c).switch = c.switch ∧ (carrySent f c).clock = c.clock
      ∧ (carrySent f c).store.arrivals = c.store.arrivals ∧ (carrySent f c).exchange.hailTimer = c.exchange.hailTimer
      ∧ (carrySent f c).exchange.tally = c.exchange.tally ∧ (carrySent f c).exchange.asker = c.exchange.asker
      ∧ (carrySent f c).exchange.suspended = c.exchange.suspended ∧ (carrySent f c).radio.active = c.radio.active
      ∧ (carrySent f c).radio.reception = c.radio.reception ∧ (carrySent f c).radio.discards = c.radio.discards
      ∧ (carrySent f c).radio.onAir = c.radio.onAir ∧ (carrySent f c).journal = c.journal
      ∧ (carrySent f c).keypad = c.keypad ∧ (carrySent f c).service = c.service ∧ (carrySent f c).draws = c.draws := by
  unfold carrySent; dsimp only; repeat' split
  all_goals simp

@[simp] theorem hailSent_frame (c : Controller) :
    (hailSent c).power = c.power ∧ (hailSent c).params = c.params ∧ (hailSent c).decommissioning = c.decommissioning
      ∧ (hailSent c).account = c.account ∧ (hailSent c).meter = c.meter ∧ (hailSent c).switch = c.switch
      ∧ (hailSent c).clock = c.clock ∧ (hailSent c).store = c.store ∧ (hailSent c).exchange.number = c.exchange.number
      ∧ (hailSent c).exchange.hailTimer = c.exchange.hailTimer ∧ (hailSent c).exchange.askQueue = c.exchange.askQueue
      ∧ (hailSent c).exchange.service = c.exchange.service ∧ (hailSent c).exchange.tally = c.exchange.tally
      ∧ (hailSent c).exchange.asker = c.exchange.asker ∧ (hailSent c).exchange.suspended = c.exchange.suspended
      ∧ (hailSent c).radio = c.radio ∧ (hailSent c).channel = c.channel ∧ (hailSent c).journal = c.journal
      ∧ (hailSent c).check = c.check ∧ (hailSent c).keypad = c.keypad ∧ (hailSent c).service = c.service
      ∧ (hailSent c).inTransit = c.inTransit ∧ (hailSent c).draws = c.draws := by
  exact ⟨rfl, rfl, rfl, rfl, rfl, rfl, rfl, rfl, rfl, rfl, rfl, rfl, rfl, rfl, rfl, rfl, rfl, rfl, rfl, rfl, rfl, rfl, rfl⟩

@[simp] theorem sent_frame (f : AirFrame) (c : Controller) :
    (sent f c).power = c.power ∧ (sent f c).params = c.params ∧ (sent f c).decommissioning = c.decommissioning
      ∧ (sent f c).account.live = c.account.live ∧ (sent f c).account.staged = c.account.staged
      ∧ (sent f c).account.flight = c.account.flight ∧ (sent f c).account.state = c.account.state
      ∧ (sent f c).account.conditions = c.account.conditions ∧ (sent f c).account.metered = c.account.metered
      ∧ (sent f c).meter = c.meter ∧ (sent f c).switch = c.switch ∧ (sent f c).clock = c.clock
      ∧ (sent f c).store.arrivals = c.store.arrivals ∧ (sent f c).exchange.hailTimer = c.exchange.hailTimer
      ∧ (sent f c).exchange.tally = c.exchange.tally ∧ (sent f c).exchange.suspended = c.exchange.suspended
      ∧ (sent f c).radio.active = c.radio.active ∧ (sent f c).radio.reception = c.radio.reception
      ∧ (sent f c).radio.discards = c.radio.discards ∧ (sent f c).radio.onAir = c.radio.onAir
      ∧ (sent f c).journal = c.journal ∧ (sent f c).keypad = c.keypad ∧ (sent f c).service = c.service
      ∧ (sent f c).draws = c.draws := by
  unfold sent; repeat' split
  all_goals simp

@[simp] theorem chooseUpTo_frame (n : Nat) (c : Controller) :
    (chooseUpTo n c).power = c.power ∧ (chooseUpTo n c).params = c.params
      ∧ (chooseUpTo n c).decommissioning = c.decommissioning ∧ (chooseUpTo n c).account.live = c.account.live
      ∧ (chooseUpTo n c).account.staged = c.account.staged ∧ (chooseUpTo n c).account.flight = c.account.flight
      ∧ (chooseUpTo n c).account.state = c.account.state ∧ (chooseUpTo n c).account.conditions = c.account.conditions
      ∧ (chooseUpTo n c).account.metered = c.account.metered ∧ (chooseUpTo n c).meter = c.meter
      ∧ (chooseUpTo n c).switch = c.switch ∧ (chooseUpTo n c).clock = c.clock
      ∧ (chooseUpTo n c).store.arrivals = c.store.arrivals ∧ (chooseUpTo n c).exchange.hailTimer = c.exchange.hailTimer
      ∧ (chooseUpTo n c).exchange.suspended = c.exchange.suspended ∧ (chooseUpTo n c).radio.active = c.radio.active
      ∧ (chooseUpTo n c).radio.reception = c.radio.reception ∧ (chooseUpTo n c).radio.discards = c.radio.discards
      ∧ (chooseUpTo n c).journal = c.journal ∧ (chooseUpTo n c).keypad = c.keypad ∧ (chooseUpTo n c).service = c.service := by
  induction n generalizing c with
  | zero => simp [chooseUpTo]
  | succ n ih =>
    unfold chooseUpTo; repeat' split
    all_goals simp [ih]

@[simp] theorem choose_frame (c : Controller) :
    (choose c).power = c.power ∧ (choose c).params = c.params ∧ (choose c).decommissioning = c.decommissioning
      ∧ (choose c).account.live = c.account.live ∧ (choose c).account.staged = c.account.staged
      ∧ (choose c).account.flight = c.account.flight ∧ (choose c).account.state = c.account.state
      ∧ (choose c).account.conditions = c.account.conditions ∧ (choose c).account.metered = c.account.metered
      ∧ (choose c).meter = c.meter ∧ (choose c).switch = c.switch ∧ (choose c).clock = c.clock
      ∧ (choose c).store.arrivals = c.store.arrivals ∧ (choose c).exchange.hailTimer = c.exchange.hailTimer
      ∧ (choose c).exchange.suspended = c.exchange.suspended ∧ (choose c).radio.active = c.radio.active
      ∧ (choose c).radio.reception = c.radio.reception ∧ (choose c).radio.discards = c.radio.discards
      ∧ (choose c).journal = c.journal ∧ (choose c).keypad = c.keypad ∧ (choose c).service = c.service := by
  simp [choose]

@[simp] theorem readForTests_frame (l : List ItemKey) (c : Controller) :
    (readForTests l c).power = c.power ∧ (readForTests l c).params = c.params
      ∧ (readForTests l c).decommissioning = c.decommissioning ∧ (readForTests l c).account.metered = c.account.metered
      ∧ (readForTests l c).meter.mode = c.meter.mode ∧ (readForTests l c).meter.request = c.meter.request
      ∧ (readForTests l c).meter.chargeRem = c.meter.chargeRem
      ∧ (readForTests l c).meter.lifetimeRem = c.meter.lifetimeRem ∧ (readForTests l c).meter.lastGood = c.meter.lastGood
      ∧ (readForTests l c).meter.misses = c.meter.misses ∧ (readForTests l c).meter.band = c.meter.band
      ∧ (readForTests l c).meter.lowRun = c.meter.lowRun ∧ (readForTests l c).meter.recoveryRun = c.meter.recoveryRun
      ∧ (readForTests l c).switch = c.switch ∧ (readForTests l c).clock = c.clock
      ∧ (readForTests l c).store.arrivals = c.store.arrivals ∧ (readForTests l c).store.cursor = c.store.cursor
      ∧ (readForTests l c).exchange = c.exchange ∧ (readForTests l c).radio = c.radio
      ∧ (readForTests l c).channel = c.channel ∧ (readForTests l c).journal.pages = c.journal.pages
      ∧ (readForTests l c).journal.block = c.journal.block
      ∧ (readForTests l c).journal.commissioning = c.journal.commissioning
      ∧ (readForTests l c).keypad.entry = c.keypad.entry ∧ (readForTests l c).keypad.buffer = c.keypad.buffer
      ∧ (readForTests l c).keypad.evaluation = c.keypad.evaluation ∧ (readForTests l c).service = c.service := by
  unfold readForTests; dsimp only; repeat' split
  all_goals simp

@[simp] theorem composeAsk_frame (f : HailFrame) (l : List ItemKey) (c : Controller) :
    (composeAsk f l c).power = c.power ∧ (composeAsk f l c).params = c.params
      ∧ (composeAsk f l c).decommissioning = c.decommissioning ∧ (composeAsk f l c).account = c.account
      ∧ (composeAsk f l c).meter = c.meter ∧ (composeAsk f l c).switch = c.switch ∧ (composeAsk f l c).clock = c.clock
      ∧ (composeAsk f l c).store = c.store ∧ (composeAsk f l c).exchange.hailer = c.exchange.hailer
      ∧ (composeAsk f l c).exchange.number = c.exchange.number
      ∧ (composeAsk f l c).exchange.hailTimer = c.exchange.hailTimer
      ∧ (composeAsk f l c).exchange.askQueue = c.exchange.askQueue
      ∧ (composeAsk f l c).exchange.service = c.exchange.service ∧ (composeAsk f l c).exchange.tally = c.exchange.tally
      ∧ (composeAsk f l c).exchange.suspended = c.exchange.suspended ∧ (composeAsk f l c).radio = c.radio
      ∧ (composeAsk f l c).channel = c.channel ∧ (composeAsk f l c).journal = c.journal
      ∧ (composeAsk f l c).check = c.check ∧ (composeAsk f l c).keypad = c.keypad ∧ (composeAsk f l c).service = c.service
      ∧ (composeAsk f l c).inTransit = c.inTransit := by
  simp [composeAsk]

@[simp] theorem takeHail_frame (f : HailFrame) (c : Controller) :
    (takeHail f c).power = c.power ∧ (takeHail f c).params = c.params ∧ (takeHail f c).decommissioning = c.decommissioning
      ∧ (takeHail f c).account.metered = c.account.metered ∧ (takeHail f c).meter.mode = c.meter.mode
      ∧ (takeHail f c).meter.request = c.meter.request ∧ (takeHail f c).meter.chargeRem = c.meter.chargeRem
      ∧ (takeHail f c).meter.lifetimeRem = c.meter.lifetimeRem ∧ (takeHail f c).meter.lastGood = c.meter.lastGood
      ∧ (takeHail f c).meter.misses = c.meter.misses ∧ (takeHail f c).meter.band = c.meter.band
      ∧ (takeHail f c).meter.lowRun = c.meter.lowRun ∧ (takeHail f c).meter.recoveryRun = c.meter.recoveryRun
      ∧ (takeHail f c).switch = c.switch ∧ (takeHail f c).clock = c.clock
      ∧ (takeHail f c).store.arrivals = c.store.arrivals ∧ (takeHail f c).store.cursor = c.store.cursor
      ∧ (takeHail f c).exchange.hailer = c.exchange.hailer ∧ (takeHail f c).exchange.number = c.exchange.number
      ∧ (takeHail f c).exchange.hailTimer = c.exchange.hailTimer ∧ (takeHail f c).exchange.askQueue = c.exchange.askQueue
      ∧ (takeHail f c).exchange.service = c.exchange.service ∧ (takeHail f c).exchange.tally = c.exchange.tally
      ∧ (takeHail f c).exchange.suspended = c.exchange.suspended ∧ (takeHail f c).radio = c.radio
      ∧ (takeHail f c).channel = c.channel ∧ (takeHail f c).journal.pages = c.journal.pages
      ∧ (takeHail f c).journal.block = c.journal.block ∧ (takeHail f c).journal.commissioning = c.journal.commissioning
      ∧ (takeHail f c).keypad.entry = c.keypad.entry ∧ (takeHail f c).keypad.buffer = c.keypad.buffer
      ∧ (takeHail f c).keypad.evaluation = c.keypad.evaluation ∧ (takeHail f c).service = c.service := by
  unfold takeHail; dsimp only; repeat' split
  all_goals simp

@[simp] theorem overhear_frame (v : Voucher) (c : Controller) :
    (overhear v c).power = c.power ∧ (overhear v c).params = c.params ∧ (overhear v c).decommissioning = c.decommissioning
      ∧ (overhear v c).account.metered = c.account.metered ∧ (overhear v c).meter.mode = c.meter.mode
      ∧ (overhear v c).meter.request = c.meter.request ∧ (overhear v c).meter.chargeRem = c.meter.chargeRem
      ∧ (overhear v c).meter.lifetimeRem = c.meter.lifetimeRem ∧ (overhear v c).meter.lastGood = c.meter.lastGood
      ∧ (overhear v c).meter.misses = c.meter.misses ∧ (overhear v c).meter.band = c.meter.band
      ∧ (overhear v c).meter.lowRun = c.meter.lowRun ∧ (overhear v c).meter.recoveryRun = c.meter.recoveryRun
      ∧ (overhear v c).switch = c.switch ∧ (overhear v c).clock = c.clock ∧ (overhear v c).store.cursor = c.store.cursor
      ∧ (overhear v c).exchange = c.exchange ∧ (overhear v c).radio.active = c.radio.active
      ∧ (overhear v c).radio.rx = c.radio.rx ∧ (overhear v c).radio.reception = c.radio.reception
      ∧ (overhear v c).radio.onAir = c.radio.onAir ∧ (overhear v c).channel = c.channel
      ∧ (overhear v c).journal.block = c.journal.block ∧ (overhear v c).journal.commissioning = c.journal.commissioning
      ∧ (overhear v c).keypad.entry = c.keypad.entry ∧ (overhear v c).keypad.buffer = c.keypad.buffer
      ∧ (overhear v c).keypad.evaluation = c.keypad.evaluation ∧ (overhear v c).service = c.service := by
  unfold overhear; dsimp only; repeat' split
  all_goals simp

@[simp] theorem overhearItem_frame (i : VoucherItem) (c : Controller) :
    (overhearItem c i).power = c.power ∧ (overhearItem c i).params = c.params
      ∧ (overhearItem c i).decommissioning = c.decommissioning ∧ (overhearItem c i).account.metered = c.account.metered
      ∧ (overhearItem c i).meter.mode = c.meter.mode ∧ (overhearItem c i).meter.request = c.meter.request
      ∧ (overhearItem c i).meter.chargeRem = c.meter.chargeRem
      ∧ (overhearItem c i).meter.lifetimeRem = c.meter.lifetimeRem ∧ (overhearItem c i).meter.lastGood = c.meter.lastGood
      ∧ (overhearItem c i).meter.misses = c.meter.misses ∧ (overhearItem c i).meter.band = c.meter.band
      ∧ (overhearItem c i).meter.lowRun = c.meter.lowRun ∧ (overhearItem c i).meter.recoveryRun = c.meter.recoveryRun
      ∧ (overhearItem c i).switch = c.switch ∧ (overhearItem c i).clock = c.clock
      ∧ (overhearItem c i).store.cursor = c.store.cursor ∧ (overhearItem c i).exchange = c.exchange
      ∧ (overhearItem c i).radio.active = c.radio.active ∧ (overhearItem c i).radio.rx = c.radio.rx
      ∧ (overhearItem c i).radio.reception = c.radio.reception ∧ (overhearItem c i).radio.onAir = c.radio.onAir
      ∧ (overhearItem c i).channel = c.channel ∧ (overhearItem c i).journal.block = c.journal.block
      ∧ (overhearItem c i).journal.commissioning = c.journal.commissioning
      ∧ (overhearItem c i).keypad.entry = c.keypad.entry ∧ (overhearItem c i).keypad.buffer = c.keypad.buffer
      ∧ (overhearItem c i).keypad.evaluation = c.keypad.evaluation ∧ (overhearItem c i).service = c.service := by
  unfold overhearItem; repeat' split
  all_goals simp

@[simp] theorem overhearItems_frame (l : List VoucherItem) (c : Controller) :
    (l.foldl overhearItem c).power = c.power ∧ (l.foldl overhearItem c).params = c.params
      ∧ (l.foldl overhearItem c).decommissioning = c.decommissioning
      ∧ (l.foldl overhearItem c).account.metered = c.account.metered ∧ (l.foldl overhearItem c).meter.mode = c.meter.mode
      ∧ (l.foldl overhearItem c).meter.request = c.meter.request
      ∧ (l.foldl overhearItem c).meter.chargeRem = c.meter.chargeRem
      ∧ (l.foldl overhearItem c).meter.lifetimeRem = c.meter.lifetimeRem
      ∧ (l.foldl overhearItem c).meter.lastGood = c.meter.lastGood
      ∧ (l.foldl overhearItem c).meter.misses = c.meter.misses ∧ (l.foldl overhearItem c).meter.band = c.meter.band
      ∧ (l.foldl overhearItem c).meter.lowRun = c.meter.lowRun
      ∧ (l.foldl overhearItem c).meter.recoveryRun = c.meter.recoveryRun ∧ (l.foldl overhearItem c).switch = c.switch
      ∧ (l.foldl overhearItem c).clock = c.clock ∧ (l.foldl overhearItem c).store.cursor = c.store.cursor
      ∧ (l.foldl overhearItem c).exchange = c.exchange ∧ (l.foldl overhearItem c).radio.active = c.radio.active
      ∧ (l.foldl overhearItem c).radio.rx = c.radio.rx ∧ (l.foldl overhearItem c).radio.reception = c.radio.reception
      ∧ (l.foldl overhearItem c).radio.onAir = c.radio.onAir ∧ (l.foldl overhearItem c).channel = c.channel
      ∧ (l.foldl overhearItem c).journal.block = c.journal.block
      ∧ (l.foldl overhearItem c).journal.commissioning = c.journal.commissioning
      ∧ (l.foldl overhearItem c).keypad.entry = c.keypad.entry ∧ (l.foldl overhearItem c).keypad.buffer = c.keypad.buffer
      ∧ (l.foldl overhearItem c).keypad.evaluation = c.keypad.evaluation ∧ (l.foldl overhearItem c).service = c.service := by
  induction l generalizing c with
  | nil => simp
  | cons w l ih => simp [ih]

@[simp] theorem overhearCarry_frame (f : CarryFrame) (c : Controller) :
    (overhearCarry f c).power = c.power ∧ (overhearCarry f c).params = c.params
      ∧ (overhearCarry f c).decommissioning = c.decommissioning ∧ (overhearCarry f c).account.metered = c.account.metered
      ∧ (overhearCarry f c).meter.mode = c.meter.mode ∧ (overhearCarry f c).meter.request = c.meter.request
      ∧ (overhearCarry f c).meter.chargeRem = c.meter.chargeRem
      ∧ (overhearCarry f c).meter.lifetimeRem = c.meter.lifetimeRem
      ∧ (overhearCarry f c).meter.lastGood = c.meter.lastGood ∧ (overhearCarry f c).meter.misses = c.meter.misses
      ∧ (overhearCarry f c).meter.band = c.meter.band ∧ (overhearCarry f c).meter.lowRun = c.meter.lowRun
      ∧ (overhearCarry f c).meter.recoveryRun = c.meter.recoveryRun ∧ (overhearCarry f c).switch = c.switch
      ∧ (overhearCarry f c).clock = c.clock ∧ (overhearCarry f c).store.cursor = c.store.cursor
      ∧ (overhearCarry f c).exchange = c.exchange ∧ (overhearCarry f c).radio.active = c.radio.active
      ∧ (overhearCarry f c).radio.rx = c.radio.rx ∧ (overhearCarry f c).radio.reception = c.radio.reception
      ∧ (overhearCarry f c).radio.onAir = c.radio.onAir ∧ (overhearCarry f c).channel = c.channel
      ∧ (overhearCarry f c).journal.block = c.journal.block
      ∧ (overhearCarry f c).journal.commissioning = c.journal.commissioning
      ∧ (overhearCarry f c).keypad.entry = c.keypad.entry ∧ (overhearCarry f c).keypad.buffer = c.keypad.buffer
      ∧ (overhearCarry f c).keypad.evaluation = c.keypad.evaluation ∧ (overhearCarry f c).service = c.service := by
  simp [overhearCarry]

@[simp] theorem takeAskedVoucher_frame (n : Option Nat) (v : Voucher) (c : Controller) :
    ((takeAskedVoucher n v c).1).power = c.power ∧ ((takeAskedVoucher n v c).1).params = c.params
      ∧ ((takeAskedVoucher n v c).1).decommissioning = c.decommissioning
      ∧ ((takeAskedVoucher n v c).1).account.metered = c.account.metered
      ∧ ((takeAskedVoucher n v c).1).meter.mode = c.meter.mode
      ∧ ((takeAskedVoucher n v c).1).meter.request = c.meter.request
      ∧ ((takeAskedVoucher n v c).1).meter.chargeRem = c.meter.chargeRem
      ∧ ((takeAskedVoucher n v c).1).meter.lifetimeRem = c.meter.lifetimeRem
      ∧ ((takeAskedVoucher n v c).1).meter.lastGood = c.meter.lastGood
      ∧ ((takeAskedVoucher n v c).1).meter.misses = c.meter.misses
      ∧ ((takeAskedVoucher n v c).1).meter.band = c.meter.band
      ∧ ((takeAskedVoucher n v c).1).meter.lowRun = c.meter.lowRun
      ∧ ((takeAskedVoucher n v c).1).meter.recoveryRun = c.meter.recoveryRun
      ∧ ((takeAskedVoucher n v c).1).switch = c.switch ∧ ((takeAskedVoucher n v c).1).clock = c.clock
      ∧ ((takeAskedVoucher n v c).1).store.cursor = c.store.cursor ∧ ((takeAskedVoucher n v c).1).exchange = c.exchange
      ∧ ((takeAskedVoucher n v c).1).radio.active = c.radio.active ∧ ((takeAskedVoucher n v c).1).radio.rx = c.radio.rx
      ∧ ((takeAskedVoucher n v c).1).radio.reception = c.radio.reception
      ∧ ((takeAskedVoucher n v c).1).radio.onAir = c.radio.onAir ∧ ((takeAskedVoucher n v c).1).channel = c.channel
      ∧ ((takeAskedVoucher n v c).1).journal.block = c.journal.block
      ∧ ((takeAskedVoucher n v c).1).journal.commissioning = c.journal.commissioning
      ∧ ((takeAskedVoucher n v c).1).keypad.entry = c.keypad.entry
      ∧ ((takeAskedVoucher n v c).1).keypad.buffer = c.keypad.buffer
      ∧ ((takeAskedVoucher n v c).1).keypad.evaluation = c.keypad.evaluation
      ∧ ((takeAskedVoucher n v c).1).service = c.service := by
  unfold takeAskedVoucher; dsimp only; repeat' split
  all_goals simp

@[simp] theorem readVoucher_frame (l : List ItemKey) (i : VoucherItem) (p : Controller × List ItemKey) :
    ((readVoucher l p i).1).power = p.1.power ∧ ((readVoucher l p i).1).params = p.1.params
      ∧ ((readVoucher l p i).1).decommissioning = p.1.decommissioning
      ∧ ((readVoucher l p i).1).account.metered = p.1.account.metered ∧ ((readVoucher l p i).1).meter.mode = p.1.meter.mode
      ∧ ((readVoucher l p i).1).meter.request = p.1.meter.request
      ∧ ((readVoucher l p i).1).meter.chargeRem = p.1.meter.chargeRem
      ∧ ((readVoucher l p i).1).meter.lifetimeRem = p.1.meter.lifetimeRem
      ∧ ((readVoucher l p i).1).meter.lastGood = p.1.meter.lastGood ∧ ((readVoucher l p i).1).meter.misses = p.1.meter.misses
      ∧ ((readVoucher l p i).1).meter.band = p.1.meter.band ∧ ((readVoucher l p i).1).meter.lowRun = p.1.meter.lowRun
      ∧ ((readVoucher l p i).1).meter.recoveryRun = p.1.meter.recoveryRun ∧ ((readVoucher l p i).1).switch = p.1.switch
      ∧ ((readVoucher l p i).1).clock = p.1.clock ∧ ((readVoucher l p i).1).store.cursor = p.1.store.cursor
      ∧ ((readVoucher l p i).1).exchange = p.1.exchange ∧ ((readVoucher l p i).1).radio.active = p.1.radio.active
      ∧ ((readVoucher l p i).1).radio.rx = p.1.radio.rx ∧ ((readVoucher l p i).1).radio.reception = p.1.radio.reception
      ∧ ((readVoucher l p i).1).radio.onAir = p.1.radio.onAir ∧ ((readVoucher l p i).1).channel = p.1.channel
      ∧ ((readVoucher l p i).1).journal.block = p.1.journal.block
      ∧ ((readVoucher l p i).1).journal.commissioning = p.1.journal.commissioning
      ∧ ((readVoucher l p i).1).keypad.entry = p.1.keypad.entry ∧ ((readVoucher l p i).1).keypad.buffer = p.1.keypad.buffer
      ∧ ((readVoucher l p i).1).keypad.evaluation = p.1.keypad.evaluation ∧ ((readVoucher l p i).1).service = p.1.service := by
  unfold readVoucher takeAsked; dsimp only; repeat' split
  all_goals simp

@[simp] theorem readReceipt_frame (l : List ItemKey) (i : ReceiptItem) (p : Controller × List ItemKey) :
    ((readReceipt l p i).1).power = p.1.power ∧ ((readReceipt l p i).1).params = p.1.params
      ∧ ((readReceipt l p i).1).decommissioning = p.1.decommissioning
      ∧ ((readReceipt l p i).1).account.metered = p.1.account.metered ∧ ((readReceipt l p i).1).meter.mode = p.1.meter.mode
      ∧ ((readReceipt l p i).1).meter.request = p.1.meter.request
      ∧ ((readReceipt l p i).1).meter.chargeRem = p.1.meter.chargeRem
      ∧ ((readReceipt l p i).1).meter.lifetimeRem = p.1.meter.lifetimeRem
      ∧ ((readReceipt l p i).1).meter.lastGood = p.1.meter.lastGood ∧ ((readReceipt l p i).1).meter.misses = p.1.meter.misses
      ∧ ((readReceipt l p i).1).meter.band = p.1.meter.band ∧ ((readReceipt l p i).1).meter.lowRun = p.1.meter.lowRun
      ∧ ((readReceipt l p i).1).meter.recoveryRun = p.1.meter.recoveryRun ∧ ((readReceipt l p i).1).switch = p.1.switch
      ∧ ((readReceipt l p i).1).clock = p.1.clock ∧ ((readReceipt l p i).1).store.cursor = p.1.store.cursor
      ∧ ((readReceipt l p i).1).exchange = p.1.exchange ∧ ((readReceipt l p i).1).radio.active = p.1.radio.active
      ∧ ((readReceipt l p i).1).radio.rx = p.1.radio.rx ∧ ((readReceipt l p i).1).radio.reception = p.1.radio.reception
      ∧ ((readReceipt l p i).1).radio.onAir = p.1.radio.onAir ∧ ((readReceipt l p i).1).channel = p.1.channel
      ∧ ((readReceipt l p i).1).journal.block = p.1.journal.block
      ∧ ((readReceipt l p i).1).journal.commissioning = p.1.journal.commissioning
      ∧ ((readReceipt l p i).1).keypad.entry = p.1.keypad.entry ∧ ((readReceipt l p i).1).keypad.buffer = p.1.keypad.buffer
      ∧ ((readReceipt l p i).1).keypad.evaluation = p.1.keypad.evaluation ∧ ((readReceipt l p i).1).service = p.1.service := by
  unfold readReceipt takeAsked; dsimp only; repeat' split
  all_goals simp

@[simp] theorem voucherItems_frame (k : List ItemKey) (l : List VoucherItem) (p : Controller × List ItemKey) :
    ((l.foldl (readVoucher k) p).1).power = p.1.power ∧ ((l.foldl (readVoucher k) p).1).params = p.1.params
      ∧ ((l.foldl (readVoucher k) p).1).decommissioning = p.1.decommissioning
      ∧ ((l.foldl (readVoucher k) p).1).account.metered = p.1.account.metered
      ∧ ((l.foldl (readVoucher k) p).1).meter.mode = p.1.meter.mode
      ∧ ((l.foldl (readVoucher k) p).1).meter.request = p.1.meter.request
      ∧ ((l.foldl (readVoucher k) p).1).meter.chargeRem = p.1.meter.chargeRem
      ∧ ((l.foldl (readVoucher k) p).1).meter.lifetimeRem = p.1.meter.lifetimeRem
      ∧ ((l.foldl (readVoucher k) p).1).meter.lastGood = p.1.meter.lastGood
      ∧ ((l.foldl (readVoucher k) p).1).meter.misses = p.1.meter.misses
      ∧ ((l.foldl (readVoucher k) p).1).meter.band = p.1.meter.band
      ∧ ((l.foldl (readVoucher k) p).1).meter.lowRun = p.1.meter.lowRun
      ∧ ((l.foldl (readVoucher k) p).1).meter.recoveryRun = p.1.meter.recoveryRun
      ∧ ((l.foldl (readVoucher k) p).1).switch = p.1.switch ∧ ((l.foldl (readVoucher k) p).1).clock = p.1.clock
      ∧ ((l.foldl (readVoucher k) p).1).store.cursor = p.1.store.cursor
      ∧ ((l.foldl (readVoucher k) p).1).exchange = p.1.exchange
      ∧ ((l.foldl (readVoucher k) p).1).radio.active = p.1.radio.active
      ∧ ((l.foldl (readVoucher k) p).1).radio.rx = p.1.radio.rx
      ∧ ((l.foldl (readVoucher k) p).1).radio.reception = p.1.radio.reception
      ∧ ((l.foldl (readVoucher k) p).1).radio.onAir = p.1.radio.onAir ∧ ((l.foldl (readVoucher k) p).1).channel = p.1.channel
      ∧ ((l.foldl (readVoucher k) p).1).journal.block = p.1.journal.block
      ∧ ((l.foldl (readVoucher k) p).1).journal.commissioning = p.1.journal.commissioning
      ∧ ((l.foldl (readVoucher k) p).1).keypad.entry = p.1.keypad.entry
      ∧ ((l.foldl (readVoucher k) p).1).keypad.buffer = p.1.keypad.buffer
      ∧ ((l.foldl (readVoucher k) p).1).keypad.evaluation = p.1.keypad.evaluation
      ∧ ((l.foldl (readVoucher k) p).1).service = p.1.service := by
  induction l generalizing p with
  | nil => simp
  | cons w l ih => simp [ih]

@[simp] theorem readReceiptItems_frame (k : List ItemKey) (l : List ReceiptItem) (p : Controller × List ItemKey) :
    ((l.foldl (readReceipt k) p).1).power = p.1.power ∧ ((l.foldl (readReceipt k) p).1).params = p.1.params
      ∧ ((l.foldl (readReceipt k) p).1).decommissioning = p.1.decommissioning
      ∧ ((l.foldl (readReceipt k) p).1).account.metered = p.1.account.metered
      ∧ ((l.foldl (readReceipt k) p).1).meter.mode = p.1.meter.mode
      ∧ ((l.foldl (readReceipt k) p).1).meter.request = p.1.meter.request
      ∧ ((l.foldl (readReceipt k) p).1).meter.chargeRem = p.1.meter.chargeRem
      ∧ ((l.foldl (readReceipt k) p).1).meter.lifetimeRem = p.1.meter.lifetimeRem
      ∧ ((l.foldl (readReceipt k) p).1).meter.lastGood = p.1.meter.lastGood
      ∧ ((l.foldl (readReceipt k) p).1).meter.misses = p.1.meter.misses
      ∧ ((l.foldl (readReceipt k) p).1).meter.band = p.1.meter.band
      ∧ ((l.foldl (readReceipt k) p).1).meter.lowRun = p.1.meter.lowRun
      ∧ ((l.foldl (readReceipt k) p).1).meter.recoveryRun = p.1.meter.recoveryRun
      ∧ ((l.foldl (readReceipt k) p).1).switch = p.1.switch ∧ ((l.foldl (readReceipt k) p).1).clock = p.1.clock
      ∧ ((l.foldl (readReceipt k) p).1).store.cursor = p.1.store.cursor
      ∧ ((l.foldl (readReceipt k) p).1).exchange = p.1.exchange
      ∧ ((l.foldl (readReceipt k) p).1).radio.active = p.1.radio.active
      ∧ ((l.foldl (readReceipt k) p).1).radio.rx = p.1.radio.rx
      ∧ ((l.foldl (readReceipt k) p).1).radio.reception = p.1.radio.reception
      ∧ ((l.foldl (readReceipt k) p).1).radio.onAir = p.1.radio.onAir ∧ ((l.foldl (readReceipt k) p).1).channel = p.1.channel
      ∧ ((l.foldl (readReceipt k) p).1).journal.block = p.1.journal.block
      ∧ ((l.foldl (readReceipt k) p).1).journal.commissioning = p.1.journal.commissioning
      ∧ ((l.foldl (readReceipt k) p).1).keypad.entry = p.1.keypad.entry
      ∧ ((l.foldl (readReceipt k) p).1).keypad.buffer = p.1.keypad.buffer
      ∧ ((l.foldl (readReceipt k) p).1).keypad.evaluation = p.1.keypad.evaluation
      ∧ ((l.foldl (readReceipt k) p).1).service = p.1.service := by
  induction l generalizing p with
  | nil => simp
  | cons w l ih => simp [ih]

@[simp] theorem readItems_frame (k : List ItemKey) (f : CarryFrame) (c : Controller) :
    ((readItems k f c).1).power = c.power ∧ ((readItems k f c).1).params = c.params
      ∧ ((readItems k f c).1).decommissioning = c.decommissioning
      ∧ ((readItems k f c).1).account.metered = c.account.metered ∧ ((readItems k f c).1).meter.mode = c.meter.mode
      ∧ ((readItems k f c).1).meter.request = c.meter.request ∧ ((readItems k f c).1).meter.chargeRem = c.meter.chargeRem
      ∧ ((readItems k f c).1).meter.lifetimeRem = c.meter.lifetimeRem
      ∧ ((readItems k f c).1).meter.lastGood = c.meter.lastGood ∧ ((readItems k f c).1).meter.misses = c.meter.misses
      ∧ ((readItems k f c).1).meter.band = c.meter.band ∧ ((readItems k f c).1).meter.lowRun = c.meter.lowRun
      ∧ ((readItems k f c).1).meter.recoveryRun = c.meter.recoveryRun ∧ ((readItems k f c).1).switch = c.switch
      ∧ ((readItems k f c).1).clock = c.clock ∧ ((readItems k f c).1).store.cursor = c.store.cursor
      ∧ ((readItems k f c).1).exchange = c.exchange ∧ ((readItems k f c).1).radio.active = c.radio.active
      ∧ ((readItems k f c).1).radio.rx = c.radio.rx ∧ ((readItems k f c).1).radio.reception = c.radio.reception
      ∧ ((readItems k f c).1).radio.onAir = c.radio.onAir ∧ ((readItems k f c).1).channel = c.channel
      ∧ ((readItems k f c).1).journal.block = c.journal.block
      ∧ ((readItems k f c).1).journal.commissioning = c.journal.commissioning
      ∧ ((readItems k f c).1).keypad.entry = c.keypad.entry ∧ ((readItems k f c).1).keypad.buffer = c.keypad.buffer
      ∧ ((readItems k f c).1).keypad.evaluation = c.keypad.evaluation ∧ ((readItems k f c).1).service = c.service := by
  simp [readItems]

@[simp] theorem readCarry_frame (o : Outstanding) (f : CarryFrame) (c : Controller) :
    (readCarry o f c).power = c.power ∧ (readCarry o f c).params = c.params
      ∧ (readCarry o f c).decommissioning = c.decommissioning ∧ (readCarry o f c).account.metered = c.account.metered
      ∧ (readCarry o f c).meter.mode = c.meter.mode ∧ (readCarry o f c).meter.request = c.meter.request
      ∧ (readCarry o f c).meter.chargeRem = c.meter.chargeRem ∧ (readCarry o f c).meter.lifetimeRem = c.meter.lifetimeRem
      ∧ (readCarry o f c).meter.lastGood = c.meter.lastGood ∧ (readCarry o f c).meter.misses = c.meter.misses
      ∧ (readCarry o f c).meter.band = c.meter.band ∧ (readCarry o f c).meter.lowRun = c.meter.lowRun
      ∧ (readCarry o f c).meter.recoveryRun = c.meter.recoveryRun ∧ (readCarry o f c).switch = c.switch
      ∧ (readCarry o f c).clock = c.clock ∧ (readCarry o f c).store.cursor = c.store.cursor
      ∧ (readCarry o f c).exchange.hailer = c.exchange.hailer ∧ (readCarry o f c).exchange.number = c.exchange.number
      ∧ (readCarry o f c).exchange.hailTimer = c.exchange.hailTimer
      ∧ (readCarry o f c).exchange.askQueue = c.exchange.askQueue
      ∧ (readCarry o f c).exchange.service = c.exchange.service ∧ (readCarry o f c).exchange.tally = c.exchange.tally
      ∧ (readCarry o f c).exchange.suspended = c.exchange.suspended ∧ (readCarry o f c).radio.active = c.radio.active
      ∧ (readCarry o f c).radio.reception = c.radio.reception ∧ (readCarry o f c).radio.onAir = c.radio.onAir
      ∧ (readCarry o f c).journal.block = c.journal.block
      ∧ (readCarry o f c).journal.commissioning = c.journal.commissioning
      ∧ (readCarry o f c).keypad.entry = c.keypad.entry ∧ (readCarry o f c).keypad.buffer = c.keypad.buffer
      ∧ (readCarry o f c).keypad.evaluation = c.keypad.evaluation ∧ (readCarry o f c).service = c.service := by
  unfold readCarry; dsimp only; repeat' split
  all_goals simp

@[simp] theorem repeatTook_frame (c : Controller) :
    (repeatTook c).power = c.power ∧ (repeatTook c).params = c.params ∧ (repeatTook c).decommissioning = c.decommissioning
      ∧ (repeatTook c).account = c.account ∧ (repeatTook c).meter = c.meter ∧ (repeatTook c).switch = c.switch
      ∧ (repeatTook c).clock = c.clock ∧ (repeatTook c).store = c.store ∧ (repeatTook c).exchange = c.exchange
      ∧ (repeatTook c).radio.active = c.radio.active ∧ (repeatTook c).radio.reception = c.radio.reception
      ∧ (repeatTook c).radio.discards = c.radio.discards ∧ (repeatTook c).radio.onAir = c.radio.onAir
      ∧ (repeatTook c).journal = c.journal ∧ (repeatTook c).check = c.check ∧ (repeatTook c).keypad = c.keypad
      ∧ (repeatTook c).service = c.service ∧ (repeatTook c).inTransit = c.inTransit ∧ (repeatTook c).draws = c.draws := by
  unfold repeatTook; repeat' split
  all_goals simp

@[simp] theorem compareBurst_frame (o : Outstanding) (f : CarryFrame) (c : Controller) :
    (compareBurst o f c).power = c.power ∧ (compareBurst o f c).params = c.params
      ∧ (compareBurst o f c).decommissioning = c.decommissioning
      ∧ (compareBurst o f c).account.metered = c.account.metered ∧ (compareBurst o f c).meter.mode = c.meter.mode
      ∧ (compareBurst o f c).meter.request = c.meter.request ∧ (compareBurst o f c).meter.chargeRem = c.meter.chargeRem
      ∧ (compareBurst o f c).meter.lifetimeRem = c.meter.lifetimeRem
      ∧ (compareBurst o f c).meter.lastGood = c.meter.lastGood ∧ (compareBurst o f c).meter.misses = c.meter.misses
      ∧ (compareBurst o f c).meter.band = c.meter.band ∧ (compareBurst o f c).meter.lowRun = c.meter.lowRun
      ∧ (compareBurst o f c).meter.recoveryRun = c.meter.recoveryRun ∧ (compareBurst o f c).switch = c.switch
      ∧ (compareBurst o f c).clock = c.clock ∧ (compareBurst o f c).store.cursor = c.store.cursor
      ∧ (compareBurst o f c).exchange.hailer = c.exchange.hailer
      ∧ (compareBurst o f c).exchange.number = c.exchange.number
      ∧ (compareBurst o f c).exchange.hailTimer = c.exchange.hailTimer
      ∧ (compareBurst o f c).exchange.askQueue = c.exchange.askQueue
      ∧ (compareBurst o f c).exchange.service = c.exchange.service
      ∧ (compareBurst o f c).exchange.tally = c.exchange.tally
      ∧ (compareBurst o f c).exchange.suspended = c.exchange.suspended
      ∧ (compareBurst o f c).radio.active = c.radio.active ∧ (compareBurst o f c).radio.reception = c.radio.reception
      ∧ (compareBurst o f c).radio.onAir = c.radio.onAir ∧ (compareBurst o f c).journal.block = c.journal.block
      ∧ (compareBurst o f c).journal.commissioning = c.journal.commissioning
      ∧ (compareBurst o f c).keypad.entry = c.keypad.entry ∧ (compareBurst o f c).keypad.buffer = c.keypad.buffer
      ∧ (compareBurst o f c).keypad.evaluation = c.keypad.evaluation ∧ (compareBurst o f c).service = c.service := by
  unfold compareBurst; repeat' split
  all_goals simp

@[simp] theorem takeCarry_frame (f : CarryFrame) (c : Controller) :
    (takeCarry f c).power = c.power ∧ (takeCarry f c).params = c.params
      ∧ (takeCarry f c).decommissioning = c.decommissioning ∧ (takeCarry f c).account.metered = c.account.metered
      ∧ (takeCarry f c).meter.mode = c.meter.mode ∧ (takeCarry f c).meter.request = c.meter.request
      ∧ (takeCarry f c).meter.chargeRem = c.meter.chargeRem ∧ (takeCarry f c).meter.lifetimeRem = c.meter.lifetimeRem
      ∧ (takeCarry f c).meter.lastGood = c.meter.lastGood ∧ (takeCarry f c).meter.misses = c.meter.misses
      ∧ (takeCarry f c).meter.band = c.meter.band ∧ (takeCarry f c).meter.lowRun = c.meter.lowRun
      ∧ (takeCarry f c).meter.recoveryRun = c.meter.recoveryRun ∧ (takeCarry f c).switch = c.switch
      ∧ (takeCarry f c).clock = c.clock ∧ (takeCarry f c).store.cursor = c.store.cursor
      ∧ (takeCarry f c).exchange.hailer = c.exchange.hailer ∧ (takeCarry f c).exchange.number = c.exchange.number
      ∧ (takeCarry f c).exchange.hailTimer = c.exchange.hailTimer
      ∧ (takeCarry f c).exchange.askQueue = c.exchange.askQueue ∧ (takeCarry f c).exchange.service = c.exchange.service
      ∧ (takeCarry f c).exchange.tally = c.exchange.tally ∧ (takeCarry f c).exchange.suspended = c.exchange.suspended
      ∧ (takeCarry f c).radio.active = c.radio.active ∧ (takeCarry f c).radio.reception = c.radio.reception
      ∧ (takeCarry f c).radio.onAir = c.radio.onAir ∧ (takeCarry f c).journal.block = c.journal.block
      ∧ (takeCarry f c).journal.commissioning = c.journal.commissioning ∧ (takeCarry f c).keypad.entry = c.keypad.entry
      ∧ (takeCarry f c).keypad.buffer = c.keypad.buffer ∧ (takeCarry f c).keypad.evaluation = c.keypad.evaluation
      ∧ (takeCarry f c).service = c.service := by
  unfold takeCarry; dsimp only; repeat' split
  all_goals simp

@[simp] theorem takeAsk_frame (f : AskFrame) (c : Controller) :
    (takeAsk f c).power = c.power ∧ (takeAsk f c).params = c.params ∧ (takeAsk f c).decommissioning = c.decommissioning
      ∧ (takeAsk f c).account.live = c.account.live ∧ (takeAsk f c).account.staged = c.account.staged
      ∧ (takeAsk f c).account.flight = c.account.flight ∧ (takeAsk f c).account.state = c.account.state
      ∧ (takeAsk f c).account.conditions = c.account.conditions ∧ (takeAsk f c).account.metered = c.account.metered
      ∧ (takeAsk f c).meter = c.meter ∧ (takeAsk f c).switch = c.switch ∧ (takeAsk f c).clock = c.clock
      ∧ (takeAsk f c).store.arrivals = c.store.arrivals ∧ (takeAsk f c).exchange.hailTimer = c.exchange.hailTimer
      ∧ (takeAsk f c).exchange.asker = c.exchange.asker ∧ (takeAsk f c).exchange.suspended = c.exchange.suspended
      ∧ (takeAsk f c).radio.active = c.radio.active ∧ (takeAsk f c).radio.reception = c.radio.reception
      ∧ (takeAsk f c).radio.discards = c.radio.discards ∧ (takeAsk f c).radio.onAir = c.radio.onAir
      ∧ (takeAsk f c).journal = c.journal ∧ (takeAsk f c).keypad = c.keypad ∧ (takeAsk f c).service = c.service := by
  unfold takeAsk; dsimp only; repeat' split
  all_goals simp

@[simp] theorem retireKeys_frame (l : List ItemKey) (c : Controller) :
    (l.foldl (fun c k => retireReceiptKey k c) c).power = c.power
      ∧ (l.foldl (fun c k => retireReceiptKey k c) c).params = c.params
      ∧ (l.foldl (fun c k => retireReceiptKey k c) c).decommissioning = c.decommissioning
      ∧ (l.foldl (fun c k => retireReceiptKey k c) c).account.live = c.account.live
      ∧ (l.foldl (fun c k => retireReceiptKey k c) c).account.staged = c.account.staged
      ∧ (l.foldl (fun c k => retireReceiptKey k c) c).account.flight = c.account.flight
      ∧ (l.foldl (fun c k => retireReceiptKey k c) c).account.state = c.account.state
      ∧ (l.foldl (fun c k => retireReceiptKey k c) c).account.conditions = c.account.conditions
      ∧ (l.foldl (fun c k => retireReceiptKey k c) c).account.metered = c.account.metered
      ∧ (l.foldl (fun c k => retireReceiptKey k c) c).meter = c.meter
      ∧ (l.foldl (fun c k => retireReceiptKey k c) c).switch = c.switch
      ∧ (l.foldl (fun c k => retireReceiptKey k c) c).clock = c.clock
      ∧ (l.foldl (fun c k => retireReceiptKey k c) c).store.arrivals = c.store.arrivals
      ∧ (l.foldl (fun c k => retireReceiptKey k c) c).store.cursor = c.store.cursor
      ∧ (l.foldl (fun c k => retireReceiptKey k c) c).exchange = c.exchange
      ∧ (l.foldl (fun c k => retireReceiptKey k c) c).radio = c.radio
      ∧ (l.foldl (fun c k => retireReceiptKey k c) c).channel = c.channel
      ∧ (l.foldl (fun c k => retireReceiptKey k c) c).journal = c.journal
      ∧ (l.foldl (fun c k => retireReceiptKey k c) c).keypad = c.keypad
      ∧ (l.foldl (fun c k => retireReceiptKey k c) c).service = c.service := by
  induction l generalizing c with
  | nil => simp
  | cons w l ih => simp [ih]

@[simp] theorem retireListed_frame (f : TookFrame) (c : Controller) :
    (retireListed f c).power = c.power ∧ (retireListed f c).params = c.params
      ∧ (retireListed f c).decommissioning = c.decommissioning ∧ (retireListed f c).account.live = c.account.live
      ∧ (retireListed f c).account.staged = c.account.staged ∧ (retireListed f c).account.flight = c.account.flight
      ∧ (retireListed f c).account.state = c.account.state ∧ (retireListed f c).account.conditions = c.account.conditions
      ∧ (retireListed f c).account.metered = c.account.metered ∧ (retireListed f c).meter = c.meter
      ∧ (retireListed f c).switch = c.switch ∧ (retireListed f c).clock = c.clock
      ∧ (retireListed f c).store.arrivals = c.store.arrivals ∧ (retireListed f c).store.cursor = c.store.cursor
      ∧ (retireListed f c).exchange = c.exchange ∧ (retireListed f c).radio = c.radio
      ∧ (retireListed f c).channel = c.channel ∧ (retireListed f c).journal = c.journal
      ∧ (retireListed f c).keypad = c.keypad ∧ (retireListed f c).service = c.service := by
  unfold retireListed; repeat' split
  all_goals simp

@[simp] theorem readServed_frame (c : Controller) :
    (readServed c).power = c.power ∧ (readServed c).params = c.params ∧ (readServed c).decommissioning = c.decommissioning
      ∧ (readServed c).account.live = c.account.live ∧ (readServed c).account.staged = c.account.staged
      ∧ (readServed c).account.flight = c.account.flight ∧ (readServed c).account.state = c.account.state
      ∧ (readServed c).account.conditions = c.account.conditions ∧ (readServed c).account.metered = c.account.metered
      ∧ (readServed c).meter = c.meter ∧ (readServed c).switch = c.switch ∧ (readServed c).clock = c.clock
      ∧ (readServed c).store.arrivals = c.store.arrivals ∧ (readServed c).exchange.hailTimer = c.exchange.hailTimer
      ∧ (readServed c).exchange.asker = c.exchange.asker ∧ (readServed c).exchange.suspended = c.exchange.suspended
      ∧ (readServed c).radio.active = c.radio.active ∧ (readServed c).radio.reception = c.radio.reception
      ∧ (readServed c).radio.discards = c.radio.discards ∧ (readServed c).radio.onAir = c.radio.onAir
      ∧ (readServed c).journal = c.journal ∧ (readServed c).keypad = c.keypad ∧ (readServed c).service = c.service
      ∧ (readServed c).draws = c.draws := by
  unfold readServed; repeat' split
  all_goals simp

@[simp] theorem takeTook_frame (f : TookFrame) (c : Controller) :
    (takeTook f c).power = c.power ∧ (takeTook f c).params = c.params ∧ (takeTook f c).decommissioning = c.decommissioning
      ∧ (takeTook f c).account.live = c.account.live ∧ (takeTook f c).account.staged = c.account.staged
      ∧ (takeTook f c).account.flight = c.account.flight ∧ (takeTook f c).account.state = c.account.state
      ∧ (takeTook f c).account.conditions = c.account.conditions ∧ (takeTook f c).account.metered = c.account.metered
      ∧ (takeTook f c).meter = c.meter ∧ (takeTook f c).switch = c.switch ∧ (takeTook f c).clock = c.clock
      ∧ (takeTook f c).store.arrivals = c.store.arrivals ∧ (takeTook f c).exchange.hailTimer = c.exchange.hailTimer
      ∧ (takeTook f c).exchange.asker = c.exchange.asker ∧ (takeTook f c).exchange.suspended = c.exchange.suspended
      ∧ (takeTook f c).radio.active = c.radio.active ∧ (takeTook f c).radio.reception = c.radio.reception
      ∧ (takeTook f c).radio.discards = c.radio.discards ∧ (takeTook f c).radio.onAir = c.radio.onAir
      ∧ (takeTook f c).journal = c.journal ∧ (takeTook f c).keypad = c.keypad ∧ (takeTook f c).service = c.service := by
  unfold takeTook; dsimp only; repeat' split
  all_goals simp

@[simp] theorem rearmHail_frame (c : Controller) :
    (rearmHail c).power = c.power ∧ (rearmHail c).params = c.params ∧ (rearmHail c).decommissioning = c.decommissioning
      ∧ (rearmHail c).account = c.account ∧ (rearmHail c).meter = c.meter ∧ (rearmHail c).switch = c.switch
      ∧ (rearmHail c).clock = c.clock ∧ (rearmHail c).store = c.store ∧ (rearmHail c).exchange.hailer = c.exchange.hailer
      ∧ (rearmHail c).exchange.number = c.exchange.number ∧ (rearmHail c).exchange.askQueue = c.exchange.askQueue
      ∧ (rearmHail c).exchange.service = c.exchange.service ∧ (rearmHail c).exchange.tally = c.exchange.tally
      ∧ (rearmHail c).exchange.asker = c.exchange.asker ∧ (rearmHail c).exchange.suspended = c.exchange.suspended
      ∧ (rearmHail c).radio = c.radio ∧ (rearmHail c).channel = c.channel ∧ (rearmHail c).journal = c.journal
      ∧ (rearmHail c).check = c.check ∧ (rearmHail c).keypad = c.keypad ∧ (rearmHail c).service = c.service
      ∧ (rearmHail c).inTransit = c.inTransit := by
  simp [rearmHail]

@[simp] theorem takeHailTimer_frame (c : Controller) :
    (takeHailTimer c).power = c.power ∧ (takeHailTimer c).params = c.params
      ∧ (takeHailTimer c).decommissioning = c.decommissioning ∧ (takeHailTimer c).account.live = c.account.live
      ∧ (takeHailTimer c).account.staged = c.account.staged ∧ (takeHailTimer c).account.flight = c.account.flight
      ∧ (takeHailTimer c).account.state = c.account.state ∧ (takeHailTimer c).account.conditions = c.account.conditions
      ∧ (takeHailTimer c).account.metered = c.account.metered ∧ (takeHailTimer c).meter = c.meter
      ∧ (takeHailTimer c).switch = c.switch ∧ (takeHailTimer c).clock = c.clock
      ∧ (takeHailTimer c).store.arrivals = c.store.arrivals ∧ (takeHailTimer c).exchange.tally = c.exchange.tally
      ∧ (takeHailTimer c).exchange.asker = c.exchange.asker ∧ (takeHailTimer c).exchange.suspended = c.exchange.suspended
      ∧ (takeHailTimer c).radio.active = c.radio.active ∧ (takeHailTimer c).radio.reception = c.radio.reception
      ∧ (takeHailTimer c).radio.discards = c.radio.discards ∧ (takeHailTimer c).radio.onAir = c.radio.onAir
      ∧ (takeHailTimer c).journal = c.journal ∧ (takeHailTimer c).keypad = c.keypad
      ∧ (takeHailTimer c).service = c.service := by
  unfold takeHailTimer; dsimp only; repeat' split
  all_goals simp

@[simp] theorem closeWindow_frame (c : Controller) :
    (closeWindow c).power = c.power ∧ (closeWindow c).params = c.params
      ∧ (closeWindow c).decommissioning = c.decommissioning ∧ (closeWindow c).account.live = c.account.live
      ∧ (closeWindow c).account.staged = c.account.staged ∧ (closeWindow c).account.flight = c.account.flight
      ∧ (closeWindow c).account.state = c.account.state ∧ (closeWindow c).account.conditions = c.account.conditions
      ∧ (closeWindow c).account.metered = c.account.metered ∧ (closeWindow c).meter = c.meter
      ∧ (closeWindow c).switch = c.switch ∧ (closeWindow c).clock = c.clock
      ∧ (closeWindow c).store.arrivals = c.store.arrivals ∧ (closeWindow c).exchange.hailTimer = c.exchange.hailTimer
      ∧ (closeWindow c).exchange.tally = c.exchange.tally ∧ (closeWindow c).exchange.asker = c.exchange.asker
      ∧ (closeWindow c).exchange.suspended = c.exchange.suspended ∧ (closeWindow c).radio.active = c.radio.active
      ∧ (closeWindow c).radio.reception = c.radio.reception ∧ (closeWindow c).radio.discards = c.radio.discards
      ∧ (closeWindow c).radio.onAir = c.radio.onAir ∧ (closeWindow c).journal = c.journal
      ∧ (closeWindow c).keypad = c.keypad ∧ (closeWindow c).service = c.service ∧ (closeWindow c).draws = c.draws := by
  simp [closeWindow]

@[simp] theorem takeWindowClose_frame (c : Controller) :
    (takeWindowClose c).power = c.power ∧ (takeWindowClose c).params = c.params
      ∧ (takeWindowClose c).decommissioning = c.decommissioning ∧ (takeWindowClose c).account.live = c.account.live
      ∧ (takeWindowClose c).account.staged = c.account.staged ∧ (takeWindowClose c).account.flight = c.account.flight
      ∧ (takeWindowClose c).account.state = c.account.state
      ∧ (takeWindowClose c).account.conditions = c.account.conditions
      ∧ (takeWindowClose c).account.metered = c.account.metered ∧ (takeWindowClose c).meter = c.meter
      ∧ (takeWindowClose c).switch = c.switch ∧ (takeWindowClose c).clock = c.clock
      ∧ (takeWindowClose c).store.arrivals = c.store.arrivals
      ∧ (takeWindowClose c).exchange.hailTimer = c.exchange.hailTimer
      ∧ (takeWindowClose c).exchange.asker = c.exchange.asker
      ∧ (takeWindowClose c).exchange.suspended = c.exchange.suspended ∧ (takeWindowClose c).radio.active = c.radio.active
      ∧ (takeWindowClose c).radio.reception = c.radio.reception ∧ (takeWindowClose c).radio.discards = c.radio.discards
      ∧ (takeWindowClose c).radio.onAir = c.radio.onAir ∧ (takeWindowClose c).journal = c.journal
      ∧ (takeWindowClose c).keypad = c.keypad ∧ (takeWindowClose c).service = c.service
      ∧ (takeWindowClose c).draws = c.draws := by
  unfold takeWindowClose; dsimp only; repeat' split
  all_goals simp

@[simp] theorem takeTookWait_frame (c : Controller) :
    (takeTookWait c).power = c.power ∧ (takeTookWait c).params = c.params
      ∧ (takeTookWait c).decommissioning = c.decommissioning ∧ (takeTookWait c).account.live = c.account.live
      ∧ (takeTookWait c).account.staged = c.account.staged ∧ (takeTookWait c).account.flight = c.account.flight
      ∧ (takeTookWait c).account.state = c.account.state ∧ (takeTookWait c).account.conditions = c.account.conditions
      ∧ (takeTookWait c).account.metered = c.account.metered ∧ (takeTookWait c).meter = c.meter
      ∧ (takeTookWait c).switch = c.switch ∧ (takeTookWait c).clock = c.clock
      ∧ (takeTookWait c).store.arrivals = c.store.arrivals ∧ (takeTookWait c).exchange.hailTimer = c.exchange.hailTimer
      ∧ (takeTookWait c).exchange.asker = c.exchange.asker ∧ (takeTookWait c).exchange.suspended = c.exchange.suspended
      ∧ (takeTookWait c).radio.active = c.radio.active ∧ (takeTookWait c).radio.reception = c.radio.reception
      ∧ (takeTookWait c).radio.discards = c.radio.discards ∧ (takeTookWait c).radio.onAir = c.radio.onAir
      ∧ (takeTookWait c).journal = c.journal ∧ (takeTookWait c).keypad = c.keypad ∧ (takeTookWait c).service = c.service
      ∧ (takeTookWait c).draws = c.draws := by
  unfold takeTookWait; dsimp only; repeat' split
  all_goals simp

@[simp] theorem takeAskDelay_frame (c : Controller) :
    (takeAskDelay c).power = c.power ∧ (takeAskDelay c).params = c.params
      ∧ (takeAskDelay c).decommissioning = c.decommissioning ∧ (takeAskDelay c).account = c.account
      ∧ (takeAskDelay c).meter = c.meter ∧ (takeAskDelay c).switch = c.switch ∧ (takeAskDelay c).clock = c.clock
      ∧ (takeAskDelay c).store = c.store ∧ (takeAskDelay c).exchange.hailer = c.exchange.hailer
      ∧ (takeAskDelay c).exchange.number = c.exchange.number ∧ (takeAskDelay c).exchange.hailTimer = c.exchange.hailTimer
      ∧ (takeAskDelay c).exchange.askQueue = c.exchange.askQueue ∧ (takeAskDelay c).exchange.service = c.exchange.service
      ∧ (takeAskDelay c).exchange.tally = c.exchange.tally ∧ (takeAskDelay c).exchange.suspended = c.exchange.suspended
      ∧ (takeAskDelay c).radio.active = c.radio.active ∧ (takeAskDelay c).radio.reception = c.radio.reception
      ∧ (takeAskDelay c).radio.discards = c.radio.discards ∧ (takeAskDelay c).radio.onAir = c.radio.onAir
      ∧ (takeAskDelay c).journal = c.journal ∧ (takeAskDelay c).check = c.check ∧ (takeAskDelay c).keypad = c.keypad
      ∧ (takeAskDelay c).service = c.service ∧ (takeAskDelay c).inTransit = c.inTransit ∧ (takeAskDelay c).draws = c.draws := by
  unfold takeAskDelay; dsimp only; repeat' split
  all_goals simp

@[simp] theorem takeAskDeadline_frame (c : Controller) :
    (takeAskDeadline c).power = c.power ∧ (takeAskDeadline c).params = c.params
      ∧ (takeAskDeadline c).decommissioning = c.decommissioning ∧ (takeAskDeadline c).account = c.account
      ∧ (takeAskDeadline c).meter = c.meter ∧ (takeAskDeadline c).switch = c.switch ∧ (takeAskDeadline c).clock = c.clock
      ∧ (takeAskDeadline c).store = c.store ∧ (takeAskDeadline c).exchange.hailer = c.exchange.hailer
      ∧ (takeAskDeadline c).exchange.number = c.exchange.number
      ∧ (takeAskDeadline c).exchange.hailTimer = c.exchange.hailTimer
      ∧ (takeAskDeadline c).exchange.askQueue = c.exchange.askQueue
      ∧ (takeAskDeadline c).exchange.service = c.exchange.service ∧ (takeAskDeadline c).exchange.tally = c.exchange.tally
      ∧ (takeAskDeadline c).exchange.suspended = c.exchange.suspended ∧ (takeAskDeadline c).radio = c.radio
      ∧ (takeAskDeadline c).journal = c.journal ∧ (takeAskDeadline c).check = c.check
      ∧ (takeAskDeadline c).keypad = c.keypad ∧ (takeAskDeadline c).service = c.service
      ∧ (takeAskDeadline c).inTransit = c.inTransit ∧ (takeAskDeadline c).draws = c.draws := by
  unfold takeAskDeadline; repeat' split
  all_goals simp

@[simp] theorem takeCarryTimeout_frame (c : Controller) :
    (takeCarryTimeout c).power = c.power ∧ (takeCarryTimeout c).params = c.params
      ∧ (takeCarryTimeout c).decommissioning = c.decommissioning ∧ (takeCarryTimeout c).account = c.account
      ∧ (takeCarryTimeout c).meter = c.meter ∧ (takeCarryTimeout c).switch = c.switch
      ∧ (takeCarryTimeout c).clock = c.clock ∧ (takeCarryTimeout c).store = c.store
      ∧ (takeCarryTimeout c).exchange.hailer = c.exchange.hailer
      ∧ (takeCarryTimeout c).exchange.number = c.exchange.number
      ∧ (takeCarryTimeout c).exchange.hailTimer = c.exchange.hailTimer
      ∧ (takeCarryTimeout c).exchange.askQueue = c.exchange.askQueue
      ∧ (takeCarryTimeout c).exchange.service = c.exchange.service
      ∧ (takeCarryTimeout c).exchange.tally = c.exchange.tally
      ∧ (takeCarryTimeout c).exchange.suspended = c.exchange.suspended ∧ (takeCarryTimeout c).radio = c.radio
      ∧ (takeCarryTimeout c).channel = c.channel ∧ (takeCarryTimeout c).journal = c.journal
      ∧ (takeCarryTimeout c).check = c.check ∧ (takeCarryTimeout c).keypad = c.keypad
      ∧ (takeCarryTimeout c).service = c.service ∧ (takeCarryTimeout c).inTransit = c.inTransit
      ∧ (takeCarryTimeout c).draws = c.draws := by
  unfold takeCarryTimeout; repeat' split
  all_goals simp

@[simp] theorem takeTransmissionEnd_frame (c : Controller) :
    (takeTransmissionEnd c).power = c.power ∧ (takeTransmissionEnd c).params = c.params
      ∧ (takeTransmissionEnd c).decommissioning = c.decommissioning
      ∧ (takeTransmissionEnd c).account.live = c.account.live ∧ (takeTransmissionEnd c).account.staged = c.account.staged
      ∧ (takeTransmissionEnd c).account.flight = c.account.flight
      ∧ (takeTransmissionEnd c).account.state = c.account.state
      ∧ (takeTransmissionEnd c).account.conditions = c.account.conditions
      ∧ (takeTransmissionEnd c).account.metered = c.account.metered ∧ (takeTransmissionEnd c).meter = c.meter
      ∧ (takeTransmissionEnd c).switch = c.switch ∧ (takeTransmissionEnd c).clock = c.clock
      ∧ (takeTransmissionEnd c).store.arrivals = c.store.arrivals
      ∧ (takeTransmissionEnd c).exchange.hailTimer = c.exchange.hailTimer
      ∧ (takeTransmissionEnd c).exchange.tally = c.exchange.tally
      ∧ (takeTransmissionEnd c).exchange.suspended = c.exchange.suspended
      ∧ (takeTransmissionEnd c).radio.active = c.radio.active
      ∧ (takeTransmissionEnd c).radio.reception = c.radio.reception
      ∧ (takeTransmissionEnd c).radio.discards = c.radio.discards ∧ (takeTransmissionEnd c).journal = c.journal
      ∧ (takeTransmissionEnd c).keypad = c.keypad ∧ (takeTransmissionEnd c).service = c.service
      ∧ (takeTransmissionEnd c).draws = c.draws := by
  unfold takeTransmissionEnd; dsimp only; repeat' split
  all_goals simp

@[simp] theorem takeBackoff_frame (c : Controller) :
    (takeBackoff c).power = c.power ∧ (takeBackoff c).params = c.params
      ∧ (takeBackoff c).decommissioning = c.decommissioning ∧ (takeBackoff c).account = c.account
      ∧ (takeBackoff c).meter = c.meter ∧ (takeBackoff c).switch = c.switch ∧ (takeBackoff c).clock = c.clock
      ∧ (takeBackoff c).store = c.store ∧ (takeBackoff c).exchange = c.exchange ∧ (takeBackoff c).radio = c.radio
      ∧ (takeBackoff c).journal = c.journal ∧ (takeBackoff c).check = c.check ∧ (takeBackoff c).keypad = c.keypad
      ∧ (takeBackoff c).service = c.service ∧ (takeBackoff c).inTransit = c.inTransit ∧ (takeBackoff c).draws = c.draws := by
  exact ⟨rfl, rfl, rfl, rfl, rfl, rfl, rfl, rfl, rfl, rfl, rfl, rfl, rfl, rfl, rfl, rfl⟩

@[simp] theorem arriveCarry_frame (f : CarryFrame) (c : Controller) :
    (arriveCarry f c).power = c.power ∧ (arriveCarry f c).params = c.params
      ∧ (arriveCarry f c).decommissioning = c.decommissioning ∧ (arriveCarry f c).account = c.account
      ∧ (arriveCarry f c).meter = c.meter ∧ (arriveCarry f c).switch = c.switch ∧ (arriveCarry f c).clock = c.clock
      ∧ (arriveCarry f c).store = c.store ∧ (arriveCarry f c).exchange = c.exchange ∧ (arriveCarry f c).radio = c.radio
      ∧ (arriveCarry f c).channel = c.channel ∧ (arriveCarry f c).journal = c.journal ∧ (arriveCarry f c).check = c.check
      ∧ (arriveCarry f c).keypad = c.keypad ∧ (arriveCarry f c).service = c.service ∧ (arriveCarry f c).draws = c.draws := by
  exact ⟨rfl, rfl, rfl, rfl, rfl, rfl, rfl, rfl, rfl, rfl, rfl, rfl, rfl, rfl, rfl, rfl⟩

@[simp] theorem arriveTook_frame (f : TookFrame) (c : Controller) :
    (arriveTook f c).power = c.power ∧ (arriveTook f c).params = c.params
      ∧ (arriveTook f c).decommissioning = c.decommissioning ∧ (arriveTook f c).account = c.account
      ∧ (arriveTook f c).meter = c.meter ∧ (arriveTook f c).switch = c.switch ∧ (arriveTook f c).clock = c.clock
      ∧ (arriveTook f c).store = c.store ∧ (arriveTook f c).exchange = c.exchange ∧ (arriveTook f c).radio = c.radio
      ∧ (arriveTook f c).channel = c.channel ∧ (arriveTook f c).journal = c.journal ∧ (arriveTook f c).check = c.check
      ∧ (arriveTook f c).keypad = c.keypad ∧ (arriveTook f c).service = c.service ∧ (arriveTook f c).draws = c.draws := by
  exact ⟨rfl, rfl, rfl, rfl, rfl, rfl, rfl, rfl, rfl, rfl, rfl, rfl, rfl, rfl, rfl, rfl⟩

/-! ### Radio.lean -/

@[simp] theorem countDiscard_frame (c : Controller) :
    (countDiscard c).power = c.power ∧ (countDiscard c).params = c.params
      ∧ (countDiscard c).decommissioning = c.decommissioning ∧ (countDiscard c).account = c.account
      ∧ (countDiscard c).meter = c.meter ∧ (countDiscard c).switch = c.switch ∧ (countDiscard c).clock = c.clock
      ∧ (countDiscard c).store = c.store ∧ (countDiscard c).exchange = c.exchange
      ∧ (countDiscard c).radio.active = c.radio.active ∧ (countDiscard c).radio.rx = c.radio.rx
      ∧ (countDiscard c).radio.reception = c.radio.reception ∧ (countDiscard c).radio.onAir = c.radio.onAir
      ∧ (countDiscard c).channel = c.channel ∧ (countDiscard c).journal = c.journal ∧ (countDiscard c).check = c.check
      ∧ (countDiscard c).keypad = c.keypad ∧ (countDiscard c).service = c.service
      ∧ (countDiscard c).inTransit = c.inTransit ∧ (countDiscard c).draws = c.draws := by
  exact ⟨rfl, rfl, rfl, rfl, rfl, rfl, rfl, rfl, rfl, rfl, rfl, rfl, rfl, rfl, rfl, rfl, rfl, rfl, rfl, rfl⟩

@[simp] theorem endReception_frame (c : Controller) :
    (endReception c).power = c.power ∧ (endReception c).params = c.params
      ∧ (endReception c).decommissioning = c.decommissioning ∧ (endReception c).account = c.account
      ∧ (endReception c).meter = c.meter ∧ (endReception c).switch = c.switch ∧ (endReception c).clock = c.clock
      ∧ (endReception c).store = c.store ∧ (endReception c).exchange = c.exchange
      ∧ (endReception c).radio.active = c.radio.active ∧ (endReception c).radio.discards = c.radio.discards
      ∧ (endReception c).radio.onAir = c.radio.onAir ∧ (endReception c).channel = c.channel
      ∧ (endReception c).journal = c.journal ∧ (endReception c).check = c.check ∧ (endReception c).keypad = c.keypad
      ∧ (endReception c).service = c.service ∧ (endReception c).inTransit = c.inTransit ∧ (endReception c).draws = c.draws := by
  exact ⟨rfl, rfl, rfl, rfl, rfl, rfl, rfl, rfl, rfl, rfl, rfl, rfl, rfl, rfl, rfl, rfl, rfl, rfl, rfl⟩

@[simp] theorem takeDozeSample_frame (b : Bool) (c : Controller) :
    (takeDozeSample b c).power = c.power ∧ (takeDozeSample b c).params = c.params
      ∧ (takeDozeSample b c).decommissioning = c.decommissioning ∧ (takeDozeSample b c).account = c.account
      ∧ (takeDozeSample b c).meter = c.meter ∧ (takeDozeSample b c).switch = c.switch
      ∧ (takeDozeSample b c).clock = c.clock ∧ (takeDozeSample b c).store = c.store
      ∧ (takeDozeSample b c).exchange = c.exchange ∧ (takeDozeSample b c).radio.active = c.radio.active
      ∧ (takeDozeSample b c).radio.reception = c.radio.reception ∧ (takeDozeSample b c).radio.discards = c.radio.discards
      ∧ (takeDozeSample b c).radio.onAir = c.radio.onAir ∧ (takeDozeSample b c).channel = c.channel
      ∧ (takeDozeSample b c).journal = c.journal ∧ (takeDozeSample b c).check = c.check
      ∧ (takeDozeSample b c).keypad = c.keypad ∧ (takeDozeSample b c).service = c.service
      ∧ (takeDozeSample b c).inTransit = c.inTransit ∧ (takeDozeSample b c).draws = c.draws := by
  unfold takeDozeSample; dsimp only; repeat' split
  all_goals simp

@[simp] theorem takeDozeEnd_frame (c : Controller) :
    (takeDozeEnd c).power = c.power ∧ (takeDozeEnd c).params = c.params
      ∧ (takeDozeEnd c).decommissioning = c.decommissioning ∧ (takeDozeEnd c).account = c.account
      ∧ (takeDozeEnd c).meter = c.meter ∧ (takeDozeEnd c).switch = c.switch ∧ (takeDozeEnd c).clock = c.clock
      ∧ (takeDozeEnd c).store = c.store ∧ (takeDozeEnd c).exchange = c.exchange
      ∧ (takeDozeEnd c).radio.active = c.radio.active ∧ (takeDozeEnd c).radio.rx = c.radio.rx
      ∧ (takeDozeEnd c).radio.reception = c.radio.reception ∧ (takeDozeEnd c).radio.discards = c.radio.discards
      ∧ (takeDozeEnd c).radio.onAir = c.radio.onAir ∧ (takeDozeEnd c).channel = c.channel
      ∧ (takeDozeEnd c).journal = c.journal ∧ (takeDozeEnd c).check = c.check ∧ (takeDozeEnd c).keypad = c.keypad
      ∧ (takeDozeEnd c).service = c.service ∧ (takeDozeEnd c).inTransit = c.inTransit ∧ (takeDozeEnd c).draws = c.draws := by
  exact ⟨rfl, rfl, rfl, rfl, rfl, rfl, rfl, rfl, rfl, rfl, rfl, rfl, rfl, rfl, rfl, rfl, rfl, rfl, rfl, rfl, rfl⟩

@[simp] theorem takeStartMark_frame (c : Controller) :
    (takeStartMark c).power = c.power ∧ (takeStartMark c).params = c.params
      ∧ (takeStartMark c).decommissioning = c.decommissioning ∧ (takeStartMark c).account = c.account
      ∧ (takeStartMark c).meter = c.meter ∧ (takeStartMark c).switch = c.switch ∧ (takeStartMark c).clock = c.clock
      ∧ (takeStartMark c).store = c.store ∧ (takeStartMark c).exchange = c.exchange
      ∧ (takeStartMark c).radio.active = c.radio.active ∧ (takeStartMark c).radio.discards = c.radio.discards
      ∧ (takeStartMark c).radio.onAir = c.radio.onAir ∧ (takeStartMark c).channel = c.channel
      ∧ (takeStartMark c).journal = c.journal ∧ (takeStartMark c).check = c.check ∧ (takeStartMark c).keypad = c.keypad
      ∧ (takeStartMark c).service = c.service ∧ (takeStartMark c).inTransit = c.inTransit
      ∧ (takeStartMark c).draws = c.draws := by
  unfold takeStartMark; dsimp only; repeat' split
  all_goals simp

@[simp] theorem cutReception_frame (c : Controller) :
    (cutReception c).power = c.power ∧ (cutReception c).params = c.params
      ∧ (cutReception c).decommissioning = c.decommissioning ∧ (cutReception c).account = c.account
      ∧ (cutReception c).meter = c.meter ∧ (cutReception c).switch = c.switch ∧ (cutReception c).clock = c.clock
      ∧ (cutReception c).store = c.store ∧ (cutReception c).exchange = c.exchange
      ∧ (cutReception c).radio.active = c.radio.active ∧ (cutReception c).radio.onAir = c.radio.onAir
      ∧ (cutReception c).channel = c.channel ∧ (cutReception c).journal = c.journal ∧ (cutReception c).check = c.check
      ∧ (cutReception c).keypad = c.keypad ∧ (cutReception c).service = c.service
      ∧ (cutReception c).inTransit = c.inTransit ∧ (cutReception c).draws = c.draws := by
  unfold cutReception; repeat' split
  all_goals simp

@[simp] theorem restartHold_frame (n : Nat) (c : Controller) :
    (restartHold n c).power = c.power ∧ (restartHold n c).params = c.params
      ∧ (restartHold n c).decommissioning = c.decommissioning ∧ (restartHold n c).account = c.account
      ∧ (restartHold n c).meter = c.meter ∧ (restartHold n c).switch = c.switch ∧ (restartHold n c).clock = c.clock
      ∧ (restartHold n c).store = c.store ∧ (restartHold n c).exchange = c.exchange
      ∧ (restartHold n c).radio.active = c.radio.active ∧ (restartHold n c).radio.rx = c.radio.rx
      ∧ (restartHold n c).radio.reception = c.radio.reception ∧ (restartHold n c).radio.discards = c.radio.discards
      ∧ (restartHold n c).radio.onAir = c.radio.onAir ∧ (restartHold n c).channel = c.channel
      ∧ (restartHold n c).journal = c.journal ∧ (restartHold n c).check = c.check ∧ (restartHold n c).keypad = c.keypad
      ∧ (restartHold n c).service = c.service ∧ (restartHold n c).inTransit = c.inTransit
      ∧ (restartHold n c).draws = c.draws := by
  unfold restartHold; dsimp only; repeat' split
  all_goals simp

@[simp] theorem deliverFrame_frame (f : AirFrame) (c : Controller) :
    (deliverFrame f c).power = c.power ∧ (deliverFrame f c).params = c.params
      ∧ (deliverFrame f c).decommissioning = c.decommissioning ∧ (deliverFrame f c).account = c.account
      ∧ (deliverFrame f c).meter = c.meter ∧ (deliverFrame f c).switch = c.switch ∧ (deliverFrame f c).clock = c.clock
      ∧ (deliverFrame f c).store = c.store ∧ (deliverFrame f c).exchange = c.exchange ∧ (deliverFrame f c).radio = c.radio
      ∧ (deliverFrame f c).channel = c.channel ∧ (deliverFrame f c).journal = c.journal
      ∧ (deliverFrame f c).check = c.check ∧ (deliverFrame f c).keypad = c.keypad ∧ (deliverFrame f c).service = c.service
      ∧ (deliverFrame f c).draws = c.draws := by
  unfold deliverFrame; repeat' split
  all_goals simp

@[simp] theorem frameReceived_frame (l : List Byte) (c : Controller) :
    (frameReceived l c).power = c.power ∧ (frameReceived l c).params = c.params
      ∧ (frameReceived l c).decommissioning = c.decommissioning ∧ (frameReceived l c).account = c.account
      ∧ (frameReceived l c).meter = c.meter ∧ (frameReceived l c).switch = c.switch
      ∧ (frameReceived l c).clock = c.clock ∧ (frameReceived l c).store = c.store
      ∧ (frameReceived l c).exchange = c.exchange ∧ (frameReceived l c).channel = c.channel
      ∧ (frameReceived l c).journal = c.journal ∧ (frameReceived l c).check = c.check
      ∧ (frameReceived l c).keypad = c.keypad ∧ (frameReceived l c).service = c.service
      ∧ (frameReceived l c).draws = c.draws ∧ (frameReceived l c).radio.active = c.radio.active
      ∧ (frameReceived l c).radio.rx = c.radio.rx ∧ (frameReceived l c).radio.reception = c.radio.reception
      ∧ (frameReceived l c).radio.onAir = c.radio.onAir := by
  unfold frameReceived; repeat' split
  all_goals simp

@[simp] theorem takeFrame_frame (l : List Byte) (c : Controller) :
    (takeFrame l c).power = c.power ∧ (takeFrame l c).params = c.params
      ∧ (takeFrame l c).decommissioning = c.decommissioning ∧ (takeFrame l c).account = c.account
      ∧ (takeFrame l c).meter = c.meter ∧ (takeFrame l c).switch = c.switch ∧ (takeFrame l c).clock = c.clock
      ∧ (takeFrame l c).store = c.store ∧ (takeFrame l c).exchange = c.exchange
      ∧ (takeFrame l c).radio.active = c.radio.active ∧ (takeFrame l c).radio.onAir = c.radio.onAir
      ∧ (takeFrame l c).channel = c.channel ∧ (takeFrame l c).journal = c.journal ∧ (takeFrame l c).check = c.check
      ∧ (takeFrame l c).keypad = c.keypad ∧ (takeFrame l c).service = c.service ∧ (takeFrame l c).draws = c.draws := by
  unfold takeFrame; dsimp only; repeat' split
  all_goals simp

@[simp] theorem takeHoldExpiry_frame (c : Controller) :
    (takeHoldExpiry c).power = c.power ∧ (takeHoldExpiry c).params = c.params
      ∧ (takeHoldExpiry c).decommissioning = c.decommissioning ∧ (takeHoldExpiry c).account = c.account
      ∧ (takeHoldExpiry c).meter = c.meter ∧ (takeHoldExpiry c).switch = c.switch ∧ (takeHoldExpiry c).clock = c.clock
      ∧ (takeHoldExpiry c).store = c.store ∧ (takeHoldExpiry c).exchange = c.exchange
      ∧ (takeHoldExpiry c).radio.active = c.radio.active ∧ (takeHoldExpiry c).radio.reception = c.radio.reception
      ∧ (takeHoldExpiry c).radio.discards = c.radio.discards ∧ (takeHoldExpiry c).radio.onAir = c.radio.onAir
      ∧ (takeHoldExpiry c).channel = c.channel ∧ (takeHoldExpiry c).journal = c.journal
      ∧ (takeHoldExpiry c).check = c.check ∧ (takeHoldExpiry c).keypad = c.keypad ∧ (takeHoldExpiry c).service = c.service
      ∧ (takeHoldExpiry c).inTransit = c.inTransit ∧ (takeHoldExpiry c).draws = c.draws := by
  unfold takeHoldExpiry; dsimp only; repeat' split
  all_goals simp

/-! ### JournalCommands.lean -/

@[simp] theorem takeProgrammed_frame (i : Bool) (c : Controller) :
    (takeProgrammed i c).power = c.power ∧ (takeProgrammed i c).params = c.params
      ∧ (takeProgrammed i c).decommissioning = c.decommissioning ∧ (takeProgrammed i c).account = c.account
      ∧ (takeProgrammed i c).meter = c.meter ∧ (takeProgrammed i c).switch = c.switch
      ∧ (takeProgrammed i c).clock = c.clock ∧ (takeProgrammed i c).store = c.store
      ∧ (takeProgrammed i c).exchange = c.exchange ∧ (takeProgrammed i c).radio = c.radio
      ∧ (takeProgrammed i c).channel = c.channel ∧ (takeProgrammed i c).check = c.check
      ∧ (takeProgrammed i c).keypad = c.keypad ∧ (takeProgrammed i c).service = c.service
      ∧ (takeProgrammed i c).inTransit = c.inTransit ∧ (takeProgrammed i c).draws = c.draws := by
  unfold takeProgrammed; dsimp only; repeat' split
  all_goals simp

@[simp] theorem markVerified_frame (m : Commit) (c : Controller) :
    (markVerified m c).power = c.power ∧ (markVerified m c).params = c.params
      ∧ (markVerified m c).decommissioning = c.decommissioning ∧ (markVerified m c).meter = c.meter
      ∧ (markVerified m c).switch = c.switch ∧ (markVerified m c).clock = c.clock
      ∧ (markVerified m c).store = c.store ∧ (markVerified m c).exchange = c.exchange
      ∧ (markVerified m c).radio = c.radio ∧ (markVerified m c).channel = c.channel
      ∧ (markVerified m c).journal = c.journal ∧ (markVerified m c).check = c.check
      ∧ (markVerified m c).keypad = c.keypad ∧ (markVerified m c).service = c.service
      ∧ (markVerified m c).inTransit = c.inTransit ∧ (markVerified m c).draws = c.draws
      ∧ (markVerified m c).account.live = c.account.live ∧ (markVerified m c).account.staged = c.account.staged
      ∧ (markVerified m c).account.state = c.account.state
      ∧ (markVerified m c).account.pendingOwn = c.account.pendingOwn
      ∧ (markVerified m c).account.conditions = c.account.conditions
      ∧ (markVerified m c).account.metered = c.account.metered
      ∧ (markVerified m c).account.statusOwed = c.account.statusOwed
      ∧ (markVerified m c).account.pass = c.account.pass ∧ (markVerified m c).account.passDue = c.account.passDue := by
  simp [markVerified]

@[simp] theorem reportCommit_frame (m : Commit) (i : Instr) (c : Controller) :
    (reportCommit m i c).power = c.power
      ∧ (reportCommit m i c).params = c.params
      ∧ (reportCommit m i c).decommissioning = c.decommissioning
      ∧ (reportCommit m i c).account.live = c.account.live
      ∧ (reportCommit m i c).account.staged = c.account.staged
      ∧ (reportCommit m i c).account.flight = c.account.flight
      ∧ (reportCommit m i c).account.state = c.account.state
      ∧ (reportCommit m i c).account.pendingOwn = c.account.pendingOwn
      ∧ (reportCommit m i c).account.conditions = c.account.conditions
      ∧ (reportCommit m i c).account.metered = c.account.metered
      ∧ (reportCommit m i c).account.statusOwed = c.account.statusOwed
      ∧ (reportCommit m i c).account.pass = c.account.pass
      ∧ (reportCommit m i c).account.passDue = c.account.passDue
      ∧ (reportCommit m i c).meter = c.meter
      ∧ (reportCommit m i c).switch = c.switch
      ∧ (reportCommit m i c).clock = c.clock
      ∧ (reportCommit m i c).store = c.store
      ∧ (reportCommit m i c).exchange = c.exchange
      ∧ (reportCommit m i c).radio = c.radio
      ∧ (reportCommit m i c).channel = c.channel
      ∧ (reportCommit m i c).journal = c.journal
      ∧ (reportCommit m i c).check = c.check
      ∧ (reportCommit m i c).keypad = c.keypad
      ∧ (reportCommit m i c).service = c.service
      ∧ (reportCommit m i c).draws = c.draws := by
  unfold reportCommit; split
  all_goals simp

@[simp] theorem commitVerified_frame (m : Commit) (c : Controller) :
    (commitVerified m c).power = c.power ∧ (commitVerified m c).params = c.params
      ∧ (commitVerified m c).decommissioning = c.decommissioning
      ∧ (commitVerified m c).account.metered = c.account.metered ∧ (commitVerified m c).meter.mode = c.meter.mode
      ∧ (commitVerified m c).meter.request = c.meter.request ∧ (commitVerified m c).meter.chargeRem = c.meter.chargeRem
      ∧ (commitVerified m c).meter.lifetimeRem = c.meter.lifetimeRem
      ∧ (commitVerified m c).meter.lastGood = c.meter.lastGood ∧ (commitVerified m c).meter.misses = c.meter.misses
      ∧ (commitVerified m c).meter.band = c.meter.band ∧ (commitVerified m c).meter.lowRun = c.meter.lowRun
      ∧ (commitVerified m c).meter.recoveryRun = c.meter.recoveryRun ∧ (commitVerified m c).switch = c.switch
      ∧ (commitVerified m c).clock = c.clock ∧ (commitVerified m c).store = c.store
      ∧ (commitVerified m c).exchange = c.exchange ∧ (commitVerified m c).radio = c.radio
      ∧ (commitVerified m c).channel = c.channel ∧ (commitVerified m c).keypad.entry = c.keypad.entry
      ∧ (commitVerified m c).keypad.buffer = c.keypad.buffer
      ∧ (commitVerified m c).keypad.evaluation = c.keypad.evaluation ∧ (commitVerified m c).service = c.service := by
  unfold commitVerified; dsimp only; repeat' split
  all_goals simp

@[simp] theorem commitFailed_frame (m : Commit) (c : Controller) :
    (commitFailed m c).power = c.power ∧ (commitFailed m c).params = c.params
      ∧ (commitFailed m c).decommissioning = c.decommissioning ∧ (commitFailed m c).account.metered = c.account.metered
      ∧ (commitFailed m c).meter.mode = c.meter.mode ∧ (commitFailed m c).meter.request = c.meter.request
      ∧ (commitFailed m c).meter.chargeRem = c.meter.chargeRem
      ∧ (commitFailed m c).meter.lifetimeRem = c.meter.lifetimeRem ∧ (commitFailed m c).meter.lastGood = c.meter.lastGood
      ∧ (commitFailed m c).meter.misses = c.meter.misses ∧ (commitFailed m c).meter.band = c.meter.band
      ∧ (commitFailed m c).meter.lowRun = c.meter.lowRun ∧ (commitFailed m c).meter.recoveryRun = c.meter.recoveryRun
      ∧ (commitFailed m c).switch = c.switch ∧ (commitFailed m c).clock = c.clock ∧ (commitFailed m c).store = c.store
      ∧ (commitFailed m c).exchange = c.exchange ∧ (commitFailed m c).radio = c.radio
      ∧ (commitFailed m c).channel = c.channel ∧ (commitFailed m c).keypad.entry = c.keypad.entry
      ∧ (commitFailed m c).keypad.buffer = c.keypad.buffer ∧ (commitFailed m c).keypad.evaluation = c.keypad.evaluation
      ∧ (commitFailed m c).service = c.service := by
  unfold commitFailed; dsimp only; repeat' split
  all_goals simp

@[simp] theorem verifyPage_frame (b : Bool) (m : Commit) (c : Controller) :
    (verifyPage b m c).power = c.power ∧ (verifyPage b m c).params = c.params
      ∧ (verifyPage b m c).decommissioning = c.decommissioning ∧ (verifyPage b m c).account.metered = c.account.metered
      ∧ (verifyPage b m c).meter.mode = c.meter.mode ∧ (verifyPage b m c).meter.request = c.meter.request
      ∧ (verifyPage b m c).meter.chargeRem = c.meter.chargeRem
      ∧ (verifyPage b m c).meter.lifetimeRem = c.meter.lifetimeRem ∧ (verifyPage b m c).meter.lastGood = c.meter.lastGood
      ∧ (verifyPage b m c).meter.misses = c.meter.misses ∧ (verifyPage b m c).meter.band = c.meter.band
      ∧ (verifyPage b m c).meter.lowRun = c.meter.lowRun ∧ (verifyPage b m c).meter.recoveryRun = c.meter.recoveryRun
      ∧ (verifyPage b m c).switch = c.switch ∧ (verifyPage b m c).clock = c.clock ∧ (verifyPage b m c).store = c.store
      ∧ (verifyPage b m c).exchange = c.exchange ∧ (verifyPage b m c).radio = c.radio
      ∧ (verifyPage b m c).channel = c.channel ∧ (verifyPage b m c).keypad.entry = c.keypad.entry
      ∧ (verifyPage b m c).keypad.buffer = c.keypad.buffer ∧ (verifyPage b m c).keypad.evaluation = c.keypad.evaluation
      ∧ (verifyPage b m c).service = c.service := by
  unfold verifyPage; dsimp only; repeat' split
  all_goals simp

@[simp] theorem scanEnded_frame (n m : Nat) (c : Controller) :
    (scanEnded n m c).power = c.power ∧ (scanEnded n m c).params = c.params
      ∧ (scanEnded n m c).decommissioning = c.decommissioning ∧ (scanEnded n m c).account = c.account
      ∧ (scanEnded n m c).meter = c.meter ∧ (scanEnded n m c).switch = c.switch ∧ (scanEnded n m c).clock = c.clock
      ∧ (scanEnded n m c).store = c.store ∧ (scanEnded n m c).exchange = c.exchange ∧ (scanEnded n m c).radio = c.radio
      ∧ (scanEnded n m c).channel = c.channel ∧ (scanEnded n m c).journal.pages = c.journal.pages
      ∧ (scanEnded n m c).journal.block = c.journal.block
      ∧ (scanEnded n m c).journal.commissioning = c.journal.commissioning ∧ (scanEnded n m c).check = c.check
      ∧ (scanEnded n m c).keypad = c.keypad ∧ (scanEnded n m c).service = c.service
      ∧ (scanEnded n m c).inTransit = c.inTransit ∧ (scanEnded n m c).draws = c.draws := by
  exact ⟨rfl, rfl, rfl, rfl, rfl, rfl, rfl, rfl, rfl, rfl, rfl, rfl, rfl, rfl, rfl, rfl, rfl, rfl, rfl⟩

@[simp] theorem recovered_frame (n m : Nat) (i : Image) (c : Controller) :
    (recovered n m i c).power = c.power ∧ (recovered n m i c).params = c.params
      ∧ (recovered n m i c).decommissioning = c.decommissioning ∧ (recovered n m i c).account.metered = c.account.metered
      ∧ (recovered n m i c).meter.mode = c.meter.mode ∧ (recovered n m i c).meter.request = c.meter.request
      ∧ (recovered n m i c).meter.lastGood = c.meter.lastGood ∧ (recovered n m i c).meter.misses = c.meter.misses
      ∧ (recovered n m i c).meter.band = c.meter.band ∧ (recovered n m i c).meter.lowRun = c.meter.lowRun
      ∧ (recovered n m i c).meter.recoveryRun = c.meter.recoveryRun ∧ (recovered n m i c).switch = c.switch
      ∧ (recovered n m i c).clock = c.clock ∧ (recovered n m i c).store = c.store
      ∧ (recovered n m i c).exchange = c.exchange ∧ (recovered n m i c).radio = c.radio
      ∧ (recovered n m i c).channel = c.channel ∧ (recovered n m i c).journal.block = c.journal.block
      ∧ (recovered n m i c).journal.commissioning = c.journal.commissioning
      ∧ (recovered n m i c).keypad.entry = c.keypad.entry ∧ (recovered n m i c).keypad.buffer = c.keypad.buffer
      ∧ (recovered n m i c).keypad.evaluation = c.keypad.evaluation ∧ (recovered n m i c).service = c.service := by
  simp [recovered]

@[simp] theorem notRecovered_frame (c : Controller) :
    (notRecovered c).power = c.power ∧ (notRecovered c).params = c.params
      ∧ (notRecovered c).decommissioning = c.decommissioning ∧ (notRecovered c).account.metered = c.account.metered
      ∧ (notRecovered c).meter.mode = c.meter.mode ∧ (notRecovered c).meter.request = c.meter.request
      ∧ (notRecovered c).meter.lastGood = c.meter.lastGood ∧ (notRecovered c).meter.misses = c.meter.misses
      ∧ (notRecovered c).meter.band = c.meter.band ∧ (notRecovered c).meter.lowRun = c.meter.lowRun
      ∧ (notRecovered c).meter.recoveryRun = c.meter.recoveryRun ∧ (notRecovered c).switch = c.switch
      ∧ (notRecovered c).clock = c.clock ∧ (notRecovered c).store = c.store ∧ (notRecovered c).exchange = c.exchange
      ∧ (notRecovered c).radio = c.radio ∧ (notRecovered c).channel = c.channel
      ∧ (notRecovered c).journal.block = c.journal.block
      ∧ (notRecovered c).journal.commissioning = c.journal.commissioning ∧ (notRecovered c).keypad.entry = c.keypad.entry
      ∧ (notRecovered c).keypad.buffer = c.keypad.buffer ∧ (notRecovered c).keypad.evaluation = c.keypad.evaluation
      ∧ (notRecovered c).service = c.service := by
  simp [notRecovered]

@[simp] theorem absenceTaken_frame (k : Scan) (c : Controller) :
    (absenceTaken k c).power = c.power ∧ (absenceTaken k c).params = c.params
      ∧ (absenceTaken k c).decommissioning = c.decommissioning ∧ (absenceTaken k c).account = c.account
      ∧ (absenceTaken k c).meter = c.meter ∧ (absenceTaken k c).switch = c.switch
      ∧ (absenceTaken k c).store = c.store ∧ (absenceTaken k c).exchange = c.exchange
      ∧ (absenceTaken k c).radio = c.radio ∧ (absenceTaken k c).channel = c.channel
      ∧ (absenceTaken k c).journal = c.journal ∧ (absenceTaken k c).check = c.check
      ∧ (absenceTaken k c).keypad = c.keypad ∧ (absenceTaken k c).service = c.service
      ∧ (absenceTaken k c).inTransit = c.inTransit ∧ (absenceTaken k c).draws = c.draws
      ∧ (absenceTaken k c).clock.timeState = c.clock.timeState ∧ (absenceTaken k c).clock.day = c.clock.day
      ∧ (absenceTaken k c).clock.second = c.clock.second ∧ (absenceTaken k c).clock.subSecond = c.clock.subSecond
      ∧ (absenceTaken k c).clock.candidate = c.clock.candidate := by
  unfold absenceTaken; split
  all_goals simp [resetAbsence]

@[simp] theorem takeRecovered_frame (c : Controller) :
    (takeRecovered c).power = c.power ∧ (takeRecovered c).params = c.params
      ∧ (takeRecovered c).decommissioning = c.decommissioning ∧ (takeRecovered c).account.metered = c.account.metered
      ∧ (takeRecovered c).meter.mode = c.meter.mode ∧ (takeRecovered c).meter.request = c.meter.request
      ∧ (takeRecovered c).meter.lastGood = c.meter.lastGood ∧ (takeRecovered c).meter.misses = c.meter.misses
      ∧ (takeRecovered c).meter.band = c.meter.band ∧ (takeRecovered c).meter.lowRun = c.meter.lowRun
      ∧ (takeRecovered c).meter.recoveryRun = c.meter.recoveryRun ∧ (takeRecovered c).switch = c.switch
      ∧ (takeRecovered c).clock.timeState = c.clock.timeState
      ∧ (takeRecovered c).clock.day = c.clock.day ∧ (takeRecovered c).clock.second = c.clock.second ∧ (takeRecovered c).store = c.store ∧ (takeRecovered c).exchange = c.exchange
      ∧ (takeRecovered c).radio = c.radio ∧ (takeRecovered c).channel = c.channel
      ∧ (takeRecovered c).journal.block = c.journal.block
      ∧ (takeRecovered c).journal.commissioning = c.journal.commissioning
      ∧ (takeRecovered c).keypad.entry = c.keypad.entry ∧ (takeRecovered c).keypad.buffer = c.keypad.buffer
      ∧ (takeRecovered c).keypad.evaluation = c.keypad.evaluation ∧ (takeRecovered c).service = c.service := by
  unfold takeRecovered; repeat' split
  all_goals simp

@[simp] theorem reloaded_frame (n : Nat) (i : Image) (c : Controller) :
    (reloaded n i c).power = c.power ∧ (reloaded n i c).params = c.params
      ∧ (reloaded n i c).decommissioning = c.decommissioning ∧ (reloaded n i c).account.metered = c.account.metered
      ∧ (reloaded n i c).meter.mode = c.meter.mode ∧ (reloaded n i c).meter.request = c.meter.request
      ∧ (reloaded n i c).meter.chargeRem = c.meter.chargeRem ∧ (reloaded n i c).meter.lifetimeRem = c.meter.lifetimeRem
      ∧ (reloaded n i c).meter.lastGood = c.meter.lastGood ∧ (reloaded n i c).meter.misses = c.meter.misses
      ∧ (reloaded n i c).meter.band = c.meter.band ∧ (reloaded n i c).meter.lowRun = c.meter.lowRun
      ∧ (reloaded n i c).meter.recoveryRun = c.meter.recoveryRun ∧ (reloaded n i c).switch = c.switch
      ∧ (reloaded n i c).clock = c.clock ∧ (reloaded n i c).store.cursor = c.store.cursor
      ∧ (reloaded n i c).exchange = c.exchange ∧ (reloaded n i c).radio.active = c.radio.active
      ∧ (reloaded n i c).radio.rx = c.radio.rx ∧ (reloaded n i c).radio.reception = c.radio.reception
      ∧ (reloaded n i c).radio.onAir = c.radio.onAir ∧ (reloaded n i c).channel = c.channel
      ∧ (reloaded n i c).journal.block = c.journal.block
      ∧ (reloaded n i c).journal.commissioning = c.journal.commissioning ∧ (reloaded n i c).keypad.entry = c.keypad.entry
      ∧ (reloaded n i c).keypad.buffer = c.keypad.buffer ∧ (reloaded n i c).keypad.evaluation = c.keypad.evaluation
      ∧ (reloaded n i c).service = c.service := by
  simp [reloaded]

@[simp] theorem notReloaded_frame (c : Controller) :
    (notReloaded c).power = c.power ∧ (notReloaded c).params = c.params
      ∧ (notReloaded c).decommissioning = c.decommissioning ∧ (notReloaded c).account.staged = c.account.staged
      ∧ (notReloaded c).account.flight = c.account.flight ∧ (notReloaded c).account.state = c.account.state
      ∧ (notReloaded c).account.pendingOwn = c.account.pendingOwn
      ∧ (notReloaded c).account.conditions = c.account.conditions ∧ (notReloaded c).account.metered = c.account.metered
      ∧ (notReloaded c).meter = c.meter ∧ (notReloaded c).switch = c.switch ∧ (notReloaded c).clock = c.clock
      ∧ (notReloaded c).store = c.store ∧ (notReloaded c).exchange = c.exchange ∧ (notReloaded c).radio = c.radio
      ∧ (notReloaded c).channel = c.channel ∧ (notReloaded c).journal.pages = c.journal.pages
      ∧ (notReloaded c).journal.block = c.journal.block ∧ (notReloaded c).journal.commissioning = c.journal.commissioning
      ∧ (notReloaded c).keypad = c.keypad ∧ (notReloaded c).service = c.service
      ∧ (notReloaded c).inTransit = c.inTransit := by
  simp [notReloaded]

@[simp] theorem takeReloaded_frame (c : Controller) :
    (takeReloaded c).power = c.power ∧ (takeReloaded c).params = c.params
      ∧ (takeReloaded c).decommissioning = c.decommissioning ∧ (takeReloaded c).account.metered = c.account.metered
      ∧ (takeReloaded c).meter.mode = c.meter.mode ∧ (takeReloaded c).meter.request = c.meter.request
      ∧ (takeReloaded c).meter.chargeRem = c.meter.chargeRem ∧ (takeReloaded c).meter.lifetimeRem = c.meter.lifetimeRem
      ∧ (takeReloaded c).meter.lastGood = c.meter.lastGood ∧ (takeReloaded c).meter.misses = c.meter.misses
      ∧ (takeReloaded c).meter.band = c.meter.band ∧ (takeReloaded c).meter.lowRun = c.meter.lowRun
      ∧ (takeReloaded c).meter.recoveryRun = c.meter.recoveryRun ∧ (takeReloaded c).switch = c.switch
      ∧ (takeReloaded c).clock = c.clock ∧ (takeReloaded c).store.cursor = c.store.cursor
      ∧ (takeReloaded c).exchange = c.exchange ∧ (takeReloaded c).radio.active = c.radio.active
      ∧ (takeReloaded c).radio.rx = c.radio.rx ∧ (takeReloaded c).radio.reception = c.radio.reception
      ∧ (takeReloaded c).radio.onAir = c.radio.onAir ∧ (takeReloaded c).channel = c.channel
      ∧ (takeReloaded c).journal.block = c.journal.block
      ∧ (takeReloaded c).journal.commissioning = c.journal.commissioning ∧ (takeReloaded c).keypad.entry = c.keypad.entry
      ∧ (takeReloaded c).keypad.buffer = c.keypad.buffer ∧ (takeReloaded c).keypad.evaluation = c.keypad.evaluation
      ∧ (takeReloaded c).service = c.service := by
  unfold takeReloaded; repeat' split
  all_goals simp

@[simp] theorem setWriteSafe_frame (b : Bool) (c : Controller) :
    (setWriteSafe b c).power.mainOn = c.power.mainOn ∧ (setWriteSafe b c).power.alwaysOn = c.power.alwaysOn
      ∧ (setWriteSafe b c).power.channelBusy = c.power.channelBusy ∧ (setWriteSafe b c).params = c.params
      ∧ (setWriteSafe b c).decommissioning = c.decommissioning ∧ (setWriteSafe b c).account = c.account
      ∧ (setWriteSafe b c).meter = c.meter ∧ (setWriteSafe b c).switch = c.switch ∧ (setWriteSafe b c).clock = c.clock
      ∧ (setWriteSafe b c).store = c.store ∧ (setWriteSafe b c).exchange = c.exchange ∧ (setWriteSafe b c).radio = c.radio
      ∧ (setWriteSafe b c).channel = c.channel ∧ (setWriteSafe b c).journal = c.journal
      ∧ (setWriteSafe b c).check = c.check ∧ (setWriteSafe b c).keypad = c.keypad ∧ (setWriteSafe b c).service = c.service
      ∧ (setWriteSafe b c).inTransit = c.inTransit ∧ (setWriteSafe b c).draws = c.draws := by
  exact ⟨rfl, rfl, rfl, rfl, rfl, rfl, rfl, rfl, rfl, rfl, rfl, rfl, rfl, rfl, rfl, rfl, rfl, rfl, rfl⟩

@[simp] theorem afterRise_frame (c : Controller) :
    (afterRise c).power = c.power ∧ (afterRise c).params = c.params ∧ (afterRise c).decommissioning = c.decommissioning
      ∧ (afterRise c).account.metered = c.account.metered ∧ (afterRise c).meter.mode = c.meter.mode
      ∧ (afterRise c).meter.request = c.meter.request ∧ (afterRise c).meter.chargeRem = c.meter.chargeRem
      ∧ (afterRise c).meter.lifetimeRem = c.meter.lifetimeRem ∧ (afterRise c).meter.lastGood = c.meter.lastGood
      ∧ (afterRise c).meter.misses = c.meter.misses ∧ (afterRise c).meter.band = c.meter.band
      ∧ (afterRise c).meter.lowRun = c.meter.lowRun ∧ (afterRise c).meter.recoveryRun = c.meter.recoveryRun
      ∧ (afterRise c).switch = c.switch ∧ (afterRise c).clock = c.clock ∧ (afterRise c).store = c.store
      ∧ (afterRise c).exchange = c.exchange ∧ (afterRise c).radio = c.radio ∧ (afterRise c).channel = c.channel
      ∧ (afterRise c).journal.commissioning = c.journal.commissioning ∧ (afterRise c).keypad.entry = c.keypad.entry
      ∧ (afterRise c).keypad.buffer = c.keypad.buffer ∧ (afterRise c).keypad.evaluation = c.keypad.evaluation
      ∧ (afterRise c).service = c.service := by
  unfold afterRise; dsimp only; repeat' split
  all_goals simp

/-! ### Keypad.lean -/

@[simp] theorem showGroups_frame (l : List BlinkGroup) (c : Controller) :
    (showGroups l c).power = c.power ∧ (showGroups l c).params = c.params
      ∧ (showGroups l c).decommissioning = c.decommissioning ∧ (showGroups l c).account = c.account
      ∧ (showGroups l c).meter = c.meter ∧ (showGroups l c).switch = c.switch ∧ (showGroups l c).clock = c.clock
      ∧ (showGroups l c).store = c.store ∧ (showGroups l c).exchange = c.exchange ∧ (showGroups l c).radio = c.radio
      ∧ (showGroups l c).channel = c.channel ∧ (showGroups l c).journal = c.journal ∧ (showGroups l c).check = c.check
      ∧ (showGroups l c).service = c.service ∧ (showGroups l c).inTransit = c.inTransit ∧ (showGroups l c).draws = c.draws := by
  exact ⟨rfl, rfl, rfl, rfl, rfl, rfl, rfl, rfl, rfl, rfl, rfl, rfl, rfl, rfl, rfl, rfl⟩

@[simp] theorem queryRecord_frame (f : Record → Nat) (c : Controller) :
    (queryRecord f c).power = c.power ∧ (queryRecord f c).params = c.params
      ∧ (queryRecord f c).decommissioning = c.decommissioning ∧ (queryRecord f c).account.metered = c.account.metered
      ∧ (queryRecord f c).meter.mode = c.meter.mode ∧ (queryRecord f c).meter.request = c.meter.request
      ∧ (queryRecord f c).meter.chargeRem = c.meter.chargeRem ∧ (queryRecord f c).meter.lifetimeRem = c.meter.lifetimeRem
      ∧ (queryRecord f c).meter.lastGood = c.meter.lastGood ∧ (queryRecord f c).meter.misses = c.meter.misses
      ∧ (queryRecord f c).meter.band = c.meter.band ∧ (queryRecord f c).meter.lowRun = c.meter.lowRun
      ∧ (queryRecord f c).meter.recoveryRun = c.meter.recoveryRun ∧ (queryRecord f c).switch = c.switch
      ∧ (queryRecord f c).clock = c.clock ∧ (queryRecord f c).store = c.store ∧ (queryRecord f c).exchange = c.exchange
      ∧ (queryRecord f c).radio = c.radio ∧ (queryRecord f c).channel = c.channel
      ∧ (queryRecord f c).journal.pages = c.journal.pages ∧ (queryRecord f c).journal.block = c.journal.block
      ∧ (queryRecord f c).journal.commissioning = c.journal.commissioning ∧ (queryRecord f c).service = c.service := by
  unfold queryRecord; dsimp only; repeat' split
  all_goals simp

@[simp] theorem handOverOwn_frame (v : Voucher) (c : Controller) :
    (handOverOwn v c).power = c.power ∧ (handOverOwn v c).params = c.params
      ∧ (handOverOwn v c).decommissioning = c.decommissioning ∧ (handOverOwn v c).account.metered = c.account.metered
      ∧ (handOverOwn v c).meter.mode = c.meter.mode ∧ (handOverOwn v c).meter.request = c.meter.request
      ∧ (handOverOwn v c).meter.chargeRem = c.meter.chargeRem ∧ (handOverOwn v c).meter.lifetimeRem = c.meter.lifetimeRem
      ∧ (handOverOwn v c).meter.lastGood = c.meter.lastGood ∧ (handOverOwn v c).meter.misses = c.meter.misses
      ∧ (handOverOwn v c).meter.band = c.meter.band ∧ (handOverOwn v c).meter.lowRun = c.meter.lowRun
      ∧ (handOverOwn v c).meter.recoveryRun = c.meter.recoveryRun ∧ (handOverOwn v c).switch = c.switch
      ∧ (handOverOwn v c).clock = c.clock ∧ (handOverOwn v c).store.cursor = c.store.cursor
      ∧ (handOverOwn v c).exchange = c.exchange ∧ (handOverOwn v c).radio.active = c.radio.active
      ∧ (handOverOwn v c).radio.rx = c.radio.rx ∧ (handOverOwn v c).radio.reception = c.radio.reception
      ∧ (handOverOwn v c).radio.onAir = c.radio.onAir ∧ (handOverOwn v c).channel = c.channel
      ∧ (handOverOwn v c).journal.block = c.journal.block
      ∧ (handOverOwn v c).journal.commissioning = c.journal.commissioning ∧ (handOverOwn v c).service = c.service := by
  unfold handOverOwn; dsimp only; repeat' split
  all_goals simp

@[simp] theorem handOverForeign_frame (v : Voucher) (c : Controller) :
    (handOverForeign v c).power = c.power ∧ (handOverForeign v c).params = c.params
      ∧ (handOverForeign v c).decommissioning = c.decommissioning ∧ (handOverForeign v c).account.live = c.account.live
      ∧ (handOverForeign v c).account.staged = c.account.staged ∧ (handOverForeign v c).account.flight = c.account.flight
      ∧ (handOverForeign v c).account.state = c.account.state
      ∧ (handOverForeign v c).account.conditions = c.account.conditions
      ∧ (handOverForeign v c).account.metered = c.account.metered ∧ (handOverForeign v c).meter = c.meter
      ∧ (handOverForeign v c).switch = c.switch ∧ (handOverForeign v c).clock = c.clock
      ∧ (handOverForeign v c).store.cursor = c.store.cursor ∧ (handOverForeign v c).exchange = c.exchange
      ∧ (handOverForeign v c).radio = c.radio ∧ (handOverForeign v c).channel = c.channel
      ∧ (handOverForeign v c).journal = c.journal ∧ (handOverForeign v c).service = c.service := by
  simp [handOverForeign]

@[simp] theorem takeCode_frame (t : TypedCode) (c : Controller) :
    (takeCode t c).power = c.power ∧ (takeCode t c).params = c.params ∧ (takeCode t c).decommissioning = c.decommissioning
      ∧ (takeCode t c).account.metered = c.account.metered ∧ (takeCode t c).meter.mode = c.meter.mode
      ∧ (takeCode t c).meter.request = c.meter.request ∧ (takeCode t c).meter.chargeRem = c.meter.chargeRem
      ∧ (takeCode t c).meter.lifetimeRem = c.meter.lifetimeRem ∧ (takeCode t c).meter.lastGood = c.meter.lastGood
      ∧ (takeCode t c).meter.misses = c.meter.misses ∧ (takeCode t c).meter.band = c.meter.band
      ∧ (takeCode t c).meter.lowRun = c.meter.lowRun ∧ (takeCode t c).meter.recoveryRun = c.meter.recoveryRun
      ∧ (takeCode t c).switch = c.switch ∧ (takeCode t c).clock = c.clock ∧ (takeCode t c).store.cursor = c.store.cursor
      ∧ (takeCode t c).exchange = c.exchange ∧ (takeCode t c).radio.active = c.radio.active
      ∧ (takeCode t c).radio.rx = c.radio.rx ∧ (takeCode t c).radio.reception = c.radio.reception
      ∧ (takeCode t c).radio.onAir = c.radio.onAir ∧ (takeCode t c).channel = c.channel
      ∧ (takeCode t c).journal.block = c.journal.block ∧ (takeCode t c).journal.commissioning = c.journal.commissioning
      ∧ (takeCode t c).service = c.service := by
  unfold takeCode; repeat' split
  all_goals simp

@[simp] theorem readSequence_frame (t : EntryState) (l : List (Fin 10)) (c : Controller) :
    (readSequence t l c).power = c.power ∧ (readSequence t l c).params = c.params
      ∧ (readSequence t l c).decommissioning = c.decommissioning
      ∧ (readSequence t l c).account.metered = c.account.metered ∧ (readSequence t l c).meter.mode = c.meter.mode
      ∧ (readSequence t l c).meter.request = c.meter.request ∧ (readSequence t l c).meter.chargeRem = c.meter.chargeRem
      ∧ (readSequence t l c).meter.lifetimeRem = c.meter.lifetimeRem
      ∧ (readSequence t l c).meter.lastGood = c.meter.lastGood ∧ (readSequence t l c).meter.misses = c.meter.misses
      ∧ (readSequence t l c).meter.band = c.meter.band ∧ (readSequence t l c).meter.lowRun = c.meter.lowRun
      ∧ (readSequence t l c).meter.recoveryRun = c.meter.recoveryRun ∧ (readSequence t l c).switch = c.switch
      ∧ (readSequence t l c).clock = c.clock ∧ (readSequence t l c).store.cursor = c.store.cursor
      ∧ (readSequence t l c).exchange = c.exchange ∧ (readSequence t l c).radio.active = c.radio.active
      ∧ (readSequence t l c).radio.rx = c.radio.rx ∧ (readSequence t l c).radio.reception = c.radio.reception
      ∧ (readSequence t l c).radio.onAir = c.radio.onAir ∧ (readSequence t l c).channel = c.channel
      ∧ (readSequence t l c).journal.block = c.journal.block
      ∧ (readSequence t l c).journal.commissioning = c.journal.commissioning ∧ (readSequence t l c).service = c.service := by
  unfold readSequence; repeat' split
  all_goals simp

@[simp] theorem sequenceComplete_frame (c : Controller) :
    (sequenceComplete c).power = c.power ∧ (sequenceComplete c).params = c.params
      ∧ (sequenceComplete c).decommissioning = c.decommissioning
      ∧ (sequenceComplete c).account.metered = c.account.metered ∧ (sequenceComplete c).meter.mode = c.meter.mode
      ∧ (sequenceComplete c).meter.request = c.meter.request ∧ (sequenceComplete c).meter.chargeRem = c.meter.chargeRem
      ∧ (sequenceComplete c).meter.lifetimeRem = c.meter.lifetimeRem
      ∧ (sequenceComplete c).meter.lastGood = c.meter.lastGood ∧ (sequenceComplete c).meter.misses = c.meter.misses
      ∧ (sequenceComplete c).meter.band = c.meter.band ∧ (sequenceComplete c).meter.lowRun = c.meter.lowRun
      ∧ (sequenceComplete c).meter.recoveryRun = c.meter.recoveryRun ∧ (sequenceComplete c).switch = c.switch
      ∧ (sequenceComplete c).clock = c.clock ∧ (sequenceComplete c).store.cursor = c.store.cursor
      ∧ (sequenceComplete c).exchange = c.exchange ∧ (sequenceComplete c).radio.active = c.radio.active
      ∧ (sequenceComplete c).radio.rx = c.radio.rx ∧ (sequenceComplete c).radio.reception = c.radio.reception
      ∧ (sequenceComplete c).radio.onAir = c.radio.onAir ∧ (sequenceComplete c).channel = c.channel
      ∧ (sequenceComplete c).journal.block = c.journal.block
      ∧ (sequenceComplete c).journal.commissioning = c.journal.commissioning ∧ (sequenceComplete c).service = c.service := by
  unfold sequenceComplete; dsimp only; repeat' split
  all_goals simp

@[simp] theorem collecting_frame (t : EntryState) (l : List (Fin 10)) (c : Controller) :
    (collecting t l c).power = c.power ∧ (collecting t l c).params = c.params
      ∧ (collecting t l c).decommissioning = c.decommissioning ∧ (collecting t l c).account = c.account
      ∧ (collecting t l c).meter = c.meter ∧ (collecting t l c).switch = c.switch ∧ (collecting t l c).clock = c.clock
      ∧ (collecting t l c).store = c.store ∧ (collecting t l c).exchange = c.exchange ∧ (collecting t l c).radio = c.radio
      ∧ (collecting t l c).channel = c.channel ∧ (collecting t l c).journal = c.journal
      ∧ (collecting t l c).check = c.check ∧ (collecting t l c).service = c.service
      ∧ (collecting t l c).inTransit = c.inTransit ∧ (collecting t l c).draws = c.draws := by
  exact ⟨rfl, rfl, rfl, rfl, rfl, rfl, rfl, rfl, rfl, rfl, rfl, rfl, rfl, rfl, rfl, rfl⟩

@[simp] theorem takeKey_frame (k : Key) (c : Controller) :
    (takeKey k c).power = c.power ∧ (takeKey k c).params = c.params ∧ (takeKey k c).decommissioning = c.decommissioning
      ∧ (takeKey k c).account.metered = c.account.metered ∧ (takeKey k c).meter.mode = c.meter.mode
      ∧ (takeKey k c).meter.request = c.meter.request ∧ (takeKey k c).meter.chargeRem = c.meter.chargeRem
      ∧ (takeKey k c).meter.lifetimeRem = c.meter.lifetimeRem ∧ (takeKey k c).meter.lastGood = c.meter.lastGood
      ∧ (takeKey k c).meter.misses = c.meter.misses ∧ (takeKey k c).meter.band = c.meter.band
      ∧ (takeKey k c).meter.lowRun = c.meter.lowRun ∧ (takeKey k c).meter.recoveryRun = c.meter.recoveryRun
      ∧ (takeKey k c).switch = c.switch ∧ (takeKey k c).clock = c.clock ∧ (takeKey k c).store.cursor = c.store.cursor
      ∧ (takeKey k c).exchange = c.exchange ∧ (takeKey k c).radio.active = c.radio.active
      ∧ (takeKey k c).radio.rx = c.radio.rx ∧ (takeKey k c).radio.reception = c.radio.reception
      ∧ (takeKey k c).radio.onAir = c.radio.onAir ∧ (takeKey k c).channel = c.channel
      ∧ (takeKey k c).journal.block = c.journal.block ∧ (takeKey k c).journal.commissioning = c.journal.commissioning
      ∧ (takeKey k c).service = c.service := by
  unfold takeKey; repeat' split
  all_goals simp

@[simp] theorem takeInterKey_frame (c : Controller) :
    (takeInterKey c).power = c.power ∧ (takeInterKey c).params = c.params
      ∧ (takeInterKey c).decommissioning = c.decommissioning ∧ (takeInterKey c).account = c.account
      ∧ (takeInterKey c).meter = c.meter ∧ (takeInterKey c).switch = c.switch ∧ (takeInterKey c).clock = c.clock
      ∧ (takeInterKey c).store = c.store ∧ (takeInterKey c).exchange = c.exchange ∧ (takeInterKey c).radio = c.radio
      ∧ (takeInterKey c).channel = c.channel ∧ (takeInterKey c).journal = c.journal ∧ (takeInterKey c).check = c.check
      ∧ (takeInterKey c).service = c.service ∧ (takeInterKey c).inTransit = c.inTransit ∧ (takeInterKey c).draws = c.draws := by
  unfold takeInterKey; dsimp only; repeat' split
  all_goals simp

@[simp] theorem takeAnswer_frame (n : Nat) (a : Answer) (c : Controller) :
    (takeAnswer n a c).power = c.power ∧ (takeAnswer n a c).params = c.params
      ∧ (takeAnswer n a c).decommissioning = c.decommissioning ∧ (takeAnswer n a c).account = c.account
      ∧ (takeAnswer n a c).meter = c.meter ∧ (takeAnswer n a c).switch = c.switch ∧ (takeAnswer n a c).clock = c.clock
      ∧ (takeAnswer n a c).store = c.store ∧ (takeAnswer n a c).exchange = c.exchange ∧ (takeAnswer n a c).radio = c.radio
      ∧ (takeAnswer n a c).channel = c.channel ∧ (takeAnswer n a c).journal = c.journal
      ∧ (takeAnswer n a c).check = c.check ∧ (takeAnswer n a c).service = c.service
      ∧ (takeAnswer n a c).inTransit = c.inTransit ∧ (takeAnswer n a c).draws = c.draws := by
  unfold takeAnswer; repeat' split
  all_goals simp

@[simp] theorem takeAnswerExpiry_frame (c : Controller) :
    (takeAnswerExpiry c).power = c.power ∧ (takeAnswerExpiry c).params = c.params
      ∧ (takeAnswerExpiry c).decommissioning = c.decommissioning ∧ (takeAnswerExpiry c).account = c.account
      ∧ (takeAnswerExpiry c).meter = c.meter ∧ (takeAnswerExpiry c).switch = c.switch
      ∧ (takeAnswerExpiry c).clock = c.clock ∧ (takeAnswerExpiry c).store = c.store
      ∧ (takeAnswerExpiry c).exchange = c.exchange ∧ (takeAnswerExpiry c).radio = c.radio
      ∧ (takeAnswerExpiry c).channel = c.channel ∧ (takeAnswerExpiry c).journal = c.journal
      ∧ (takeAnswerExpiry c).check = c.check ∧ (takeAnswerExpiry c).service = c.service
      ∧ (takeAnswerExpiry c).inTransit = c.inTransit ∧ (takeAnswerExpiry c).draws = c.draws := by
  unfold takeAnswerExpiry; repeat' split
  all_goals simp

@[simp] theorem takeDisplay_frame (c : Controller) :
    (takeDisplay c).power = c.power ∧ (takeDisplay c).params = c.params
      ∧ (takeDisplay c).decommissioning = c.decommissioning ∧ (takeDisplay c).account = c.account
      ∧ (takeDisplay c).meter = c.meter ∧ (takeDisplay c).switch = c.switch ∧ (takeDisplay c).clock = c.clock
      ∧ (takeDisplay c).store = c.store ∧ (takeDisplay c).exchange = c.exchange ∧ (takeDisplay c).radio = c.radio
      ∧ (takeDisplay c).channel = c.channel ∧ (takeDisplay c).journal = c.journal ∧ (takeDisplay c).check = c.check
      ∧ (takeDisplay c).service = c.service ∧ (takeDisplay c).inTransit = c.inTransit ∧ (takeDisplay c).draws = c.draws := by
  unfold takeDisplay; dsimp only; repeat' split
  all_goals simp

@[simp] theorem takeFlash_frame (c : Controller) :
    (takeFlash c).power = c.power ∧ (takeFlash c).params = c.params ∧ (takeFlash c).decommissioning = c.decommissioning
      ∧ (takeFlash c).account = c.account ∧ (takeFlash c).meter = c.meter ∧ (takeFlash c).switch = c.switch
      ∧ (takeFlash c).clock = c.clock ∧ (takeFlash c).store = c.store ∧ (takeFlash c).exchange = c.exchange
      ∧ (takeFlash c).radio = c.radio ∧ (takeFlash c).channel = c.channel ∧ (takeFlash c).journal = c.journal
      ∧ (takeFlash c).check = c.check ∧ (takeFlash c).service = c.service ∧ (takeFlash c).inTransit = c.inTransit
      ∧ (takeFlash c).draws = c.draws := by
  unfold takeFlash; dsimp only; repeat' split
  all_goals simp

/-! ### ServiceLine.lean -/

@[simp] theorem respondPart_frame (n : Nat) (t : Status) (l : List Byte) (b : Bool) (c : Controller) :
    (respondPart n t l b c).power = c.power ∧ (respondPart n t l b c).params = c.params
      ∧ (respondPart n t l b c).decommissioning = c.decommissioning ∧ (respondPart n t l b c).account = c.account
      ∧ (respondPart n t l b c).meter = c.meter ∧ (respondPart n t l b c).switch = c.switch
      ∧ (respondPart n t l b c).clock = c.clock ∧ (respondPart n t l b c).store = c.store
      ∧ (respondPart n t l b c).exchange = c.exchange ∧ (respondPart n t l b c).radio = c.radio
      ∧ (respondPart n t l b c).channel = c.channel ∧ (respondPart n t l b c).journal = c.journal
      ∧ (respondPart n t l b c).check = c.check ∧ (respondPart n t l b c).keypad = c.keypad
      ∧ (respondPart n t l b c).inTransit = c.inTransit ∧ (respondPart n t l b c).draws = c.draws := by
  exact ⟨rfl, rfl, rfl, rfl, rfl, rfl, rfl, rfl, rfl, rfl, rfl, rfl, rfl, rfl, rfl, rfl⟩

@[simp] theorem respond_frame (n : Nat) (t : Status) (l : List Byte) (c : Controller) :
    (respond n t l c).power = c.power ∧ (respond n t l c).params = c.params
      ∧ (respond n t l c).decommissioning = c.decommissioning ∧ (respond n t l c).account = c.account
      ∧ (respond n t l c).meter = c.meter ∧ (respond n t l c).switch = c.switch ∧ (respond n t l c).clock = c.clock
      ∧ (respond n t l c).store = c.store ∧ (respond n t l c).exchange = c.exchange ∧ (respond n t l c).radio = c.radio
      ∧ (respond n t l c).channel = c.channel ∧ (respond n t l c).journal = c.journal ∧ (respond n t l c).check = c.check
      ∧ (respond n t l c).keypad = c.keypad ∧ (respond n t l c).inTransit = c.inTransit
      ∧ (respond n t l c).draws = c.draws := by
  simp [respond]

@[simp] theorem emptyCaptures_frame (c : Controller) :
    (emptyCaptures c).power = c.power ∧ (emptyCaptures c).params = c.params
      ∧ (emptyCaptures c).decommissioning = c.decommissioning ∧ (emptyCaptures c).account = c.account
      ∧ (emptyCaptures c).meter = c.meter ∧ (emptyCaptures c).switch = c.switch ∧ (emptyCaptures c).clock = c.clock
      ∧ (emptyCaptures c).store = c.store ∧ (emptyCaptures c).exchange = c.exchange ∧ (emptyCaptures c).radio = c.radio
      ∧ (emptyCaptures c).channel = c.channel ∧ (emptyCaptures c).journal = c.journal
      ∧ (emptyCaptures c).keypad = c.keypad ∧ (emptyCaptures c).service = c.service
      ∧ (emptyCaptures c).inTransit = c.inTransit ∧ (emptyCaptures c).draws = c.draws := by
  exact ⟨rfl, rfl, rfl, rfl, rfl, rfl, rfl, rfl, rfl, rfl, rfl, rfl, rfl, rfl, rfl, rfl⟩

@[simp] theorem doStatus_frame (c : Controller) :
    (doStatus c).power = c.power ∧ (doStatus c).params = c.params ∧ (doStatus c).decommissioning = c.decommissioning
      ∧ (doStatus c).account.metered = c.account.metered ∧ (doStatus c).meter.mode = c.meter.mode
      ∧ (doStatus c).meter.request = c.meter.request ∧ (doStatus c).meter.chargeRem = c.meter.chargeRem
      ∧ (doStatus c).meter.lifetimeRem = c.meter.lifetimeRem ∧ (doStatus c).meter.lastGood = c.meter.lastGood
      ∧ (doStatus c).meter.misses = c.meter.misses ∧ (doStatus c).meter.band = c.meter.band
      ∧ (doStatus c).meter.lowRun = c.meter.lowRun ∧ (doStatus c).meter.recoveryRun = c.meter.recoveryRun
      ∧ (doStatus c).switch = c.switch ∧ (doStatus c).clock = c.clock ∧ (doStatus c).store.arrivals = c.store.arrivals
      ∧ (doStatus c).store.cursor = c.store.cursor
      ∧ (doStatus c).exchange = c.exchange ∧ (doStatus c).radio = c.radio ∧ (doStatus c).channel = c.channel
      ∧ (doStatus c).journal.pages = c.journal.pages ∧ (doStatus c).journal.block = c.journal.block
      ∧ (doStatus c).journal.commissioning = c.journal.commissioning ∧ (doStatus c).keypad.entry = c.keypad.entry
      ∧ (doStatus c).keypad.buffer = c.keypad.buffer ∧ (doStatus c).keypad.evaluation = c.keypad.evaluation := by
  unfold doStatus; dsimp only; repeat' split
  all_goals simp

@[simp] theorem setOrdinary_frame (d n : Nat) (c : Controller) :
    (setOrdinary d n c).power = c.power ∧ (setOrdinary d n c).params = c.params
      ∧ (setOrdinary d n c).decommissioning = c.decommissioning ∧ (setOrdinary d n c).account = c.account
      ∧ (setOrdinary d n c).meter = c.meter ∧ (setOrdinary d n c).switch = c.switch ∧ (setOrdinary d n c).store = c.store
      ∧ (setOrdinary d n c).exchange = c.exchange ∧ (setOrdinary d n c).radio = c.radio
      ∧ (setOrdinary d n c).channel = c.channel ∧ (setOrdinary d n c).journal = c.journal
      ∧ (setOrdinary d n c).check = c.check ∧ (setOrdinary d n c).keypad = c.keypad ∧ (setOrdinary d n c).draws = c.draws := by
  unfold setOrdinary; repeat' split
  all_goals simp

@[simp] theorem doSetTime_frame (d n : Nat) (c : Controller) :
    (doSetTime d n c).power = c.power ∧ (doSetTime d n c).params = c.params
      ∧ (doSetTime d n c).decommissioning = c.decommissioning ∧ (doSetTime d n c).account = c.account
      ∧ (doSetTime d n c).meter = c.meter ∧ (doSetTime d n c).switch = c.switch ∧ (doSetTime d n c).store = c.store
      ∧ (doSetTime d n c).exchange = c.exchange ∧ (doSetTime d n c).radio = c.radio
      ∧ (doSetTime d n c).channel = c.channel ∧ (doSetTime d n c).journal = c.journal ∧ (doSetTime d n c).check = c.check
      ∧ (doSetTime d n c).keypad = c.keypad ∧ (doSetTime d n c).draws = c.draws := by
  unfold doSetTime; repeat' split
  all_goals simp

@[simp] theorem doArmFault_frame (l : List Byte) (c : Controller) :
    (doArmFault l c).power = c.power ∧ (doArmFault l c).params = c.params
      ∧ (doArmFault l c).decommissioning = c.decommissioning ∧ (doArmFault l c).account = c.account
      ∧ (doArmFault l c).meter = c.meter ∧ (doArmFault l c).switch = c.switch ∧ (doArmFault l c).clock = c.clock
      ∧ (doArmFault l c).store = c.store ∧ (doArmFault l c).exchange = c.exchange ∧ (doArmFault l c).radio = c.radio
      ∧ (doArmFault l c).channel = c.channel ∧ (doArmFault l c).journal = c.journal ∧ (doArmFault l c).keypad = c.keypad
      ∧ (doArmFault l c).inTransit = c.inTransit ∧ (doArmFault l c).draws = c.draws := by
  unfold doArmFault; dsimp only; repeat' split
  all_goals simp

@[simp] theorem injectForeign_frame (v : Voucher) (c : Controller) :
    ((injectForeign v c).1).power = c.power ∧ ((injectForeign v c).1).params = c.params
      ∧ ((injectForeign v c).1).decommissioning = c.decommissioning
      ∧ ((injectForeign v c).1).account.live = c.account.live ∧ ((injectForeign v c).1).account.staged = c.account.staged
      ∧ ((injectForeign v c).1).account.flight = c.account.flight
      ∧ ((injectForeign v c).1).account.state = c.account.state
      ∧ ((injectForeign v c).1).account.conditions = c.account.conditions
      ∧ ((injectForeign v c).1).account.metered = c.account.metered ∧ ((injectForeign v c).1).meter = c.meter
      ∧ ((injectForeign v c).1).switch = c.switch ∧ ((injectForeign v c).1).clock = c.clock
      ∧ ((injectForeign v c).1).store.cursor = c.store.cursor ∧ ((injectForeign v c).1).exchange = c.exchange
      ∧ ((injectForeign v c).1).radio = c.radio ∧ ((injectForeign v c).1).channel = c.channel
      ∧ ((injectForeign v c).1).journal = c.journal ∧ ((injectForeign v c).1).keypad = c.keypad
      ∧ ((injectForeign v c).1).service = c.service := by
  simp [injectForeign]

@[simp] theorem injectOne_frame (i : VoucherItem) (c : Controller) :
    ((injectOne i c).1).power = c.power ∧ ((injectOne i c).1).params = c.params
      ∧ ((injectOne i c).1).decommissioning = c.decommissioning ∧ ((injectOne i c).1).account.metered = c.account.metered
      ∧ ((injectOne i c).1).meter.mode = c.meter.mode ∧ ((injectOne i c).1).meter.request = c.meter.request
      ∧ ((injectOne i c).1).meter.chargeRem = c.meter.chargeRem
      ∧ ((injectOne i c).1).meter.lifetimeRem = c.meter.lifetimeRem
      ∧ ((injectOne i c).1).meter.lastGood = c.meter.lastGood ∧ ((injectOne i c).1).meter.misses = c.meter.misses
      ∧ ((injectOne i c).1).meter.band = c.meter.band ∧ ((injectOne i c).1).meter.lowRun = c.meter.lowRun
      ∧ ((injectOne i c).1).meter.recoveryRun = c.meter.recoveryRun ∧ ((injectOne i c).1).switch = c.switch
      ∧ ((injectOne i c).1).clock = c.clock ∧ ((injectOne i c).1).store.cursor = c.store.cursor
      ∧ ((injectOne i c).1).exchange = c.exchange ∧ ((injectOne i c).1).radio.active = c.radio.active
      ∧ ((injectOne i c).1).radio.rx = c.radio.rx ∧ ((injectOne i c).1).radio.reception = c.radio.reception
      ∧ ((injectOne i c).1).radio.onAir = c.radio.onAir ∧ ((injectOne i c).1).channel = c.channel
      ∧ ((injectOne i c).1).journal.block = c.journal.block
      ∧ ((injectOne i c).1).journal.commissioning = c.journal.commissioning
      ∧ ((injectOne i c).1).keypad.entry = c.keypad.entry ∧ ((injectOne i c).1).keypad.buffer = c.keypad.buffer
      ∧ ((injectOne i c).1).keypad.evaluation = c.keypad.evaluation ∧ ((injectOne i c).1).service = c.service := by
  unfold injectOne; repeat' split
  all_goals simp

@[simp] theorem injectAll_frame (l : List VoucherItem) (c : Controller) :
    ((injectAll l c).1).power = c.power ∧ ((injectAll l c).1).params = c.params
      ∧ ((injectAll l c).1).decommissioning = c.decommissioning ∧ ((injectAll l c).1).account.metered = c.account.metered
      ∧ ((injectAll l c).1).meter.mode = c.meter.mode ∧ ((injectAll l c).1).meter.request = c.meter.request
      ∧ ((injectAll l c).1).meter.chargeRem = c.meter.chargeRem
      ∧ ((injectAll l c).1).meter.lifetimeRem = c.meter.lifetimeRem
      ∧ ((injectAll l c).1).meter.lastGood = c.meter.lastGood ∧ ((injectAll l c).1).meter.misses = c.meter.misses
      ∧ ((injectAll l c).1).meter.band = c.meter.band ∧ ((injectAll l c).1).meter.lowRun = c.meter.lowRun
      ∧ ((injectAll l c).1).meter.recoveryRun = c.meter.recoveryRun ∧ ((injectAll l c).1).switch = c.switch
      ∧ ((injectAll l c).1).clock = c.clock ∧ ((injectAll l c).1).store.cursor = c.store.cursor
      ∧ ((injectAll l c).1).exchange = c.exchange ∧ ((injectAll l c).1).radio.active = c.radio.active
      ∧ ((injectAll l c).1).radio.rx = c.radio.rx ∧ ((injectAll l c).1).radio.reception = c.radio.reception
      ∧ ((injectAll l c).1).radio.onAir = c.radio.onAir ∧ ((injectAll l c).1).channel = c.channel
      ∧ ((injectAll l c).1).journal.block = c.journal.block
      ∧ ((injectAll l c).1).journal.commissioning = c.journal.commissioning
      ∧ ((injectAll l c).1).keypad.entry = c.keypad.entry ∧ ((injectAll l c).1).keypad.buffer = c.keypad.buffer
      ∧ ((injectAll l c).1).keypad.evaluation = c.keypad.evaluation ∧ ((injectAll l c).1).service = c.service := by
  induction l generalizing c with
  | nil => simp [injectAll]
  | cons i l ih => simp [injectAll, ih]

@[simp] theorem doInject_frame (l : List Byte) (c : Controller) :
    (doInject l c).power = c.power ∧ (doInject l c).params = c.params ∧ (doInject l c).decommissioning = c.decommissioning
      ∧ (doInject l c).account.metered = c.account.metered ∧ (doInject l c).meter.mode = c.meter.mode
      ∧ (doInject l c).meter.request = c.meter.request ∧ (doInject l c).meter.chargeRem = c.meter.chargeRem
      ∧ (doInject l c).meter.lifetimeRem = c.meter.lifetimeRem ∧ (doInject l c).meter.lastGood = c.meter.lastGood
      ∧ (doInject l c).meter.misses = c.meter.misses ∧ (doInject l c).meter.band = c.meter.band
      ∧ (doInject l c).meter.lowRun = c.meter.lowRun ∧ (doInject l c).meter.recoveryRun = c.meter.recoveryRun
      ∧ (doInject l c).switch = c.switch ∧ (doInject l c).clock = c.clock ∧ (doInject l c).store.cursor = c.store.cursor
      ∧ (doInject l c).exchange = c.exchange ∧ (doInject l c).radio.active = c.radio.active
      ∧ (doInject l c).radio.rx = c.radio.rx ∧ (doInject l c).radio.reception = c.radio.reception
      ∧ (doInject l c).radio.onAir = c.radio.onAir ∧ (doInject l c).channel = c.channel
      ∧ (doInject l c).journal.block = c.journal.block ∧ (doInject l c).journal.commissioning = c.journal.commissioning
      ∧ (doInject l c).keypad.entry = c.keypad.entry ∧ (doInject l c).keypad.buffer = c.keypad.buffer
      ∧ (doInject l c).keypad.evaluation = c.keypad.evaluation := by
  simp [doInject]

@[simp] theorem collectFrom_frame (c : Controller) :
    ((collectFrom c).2).power = c.power ∧ ((collectFrom c).2).params = c.params
      ∧ ((collectFrom c).2).decommissioning = c.decommissioning ∧ ((collectFrom c).2).account.live = c.account.live
      ∧ ((collectFrom c).2).account.staged = c.account.staged ∧ ((collectFrom c).2).account.flight = c.account.flight
      ∧ ((collectFrom c).2).account.state = c.account.state
      ∧ ((collectFrom c).2).account.conditions = c.account.conditions
      ∧ ((collectFrom c).2).account.metered = c.account.metered ∧ ((collectFrom c).2).meter = c.meter
      ∧ ((collectFrom c).2).switch = c.switch ∧ ((collectFrom c).2).clock = c.clock
      ∧ ((collectFrom c).2).store.arrivals = c.store.arrivals ∧ ((collectFrom c).2).store.cursor = c.store.cursor
      ∧ ((collectFrom c).2).exchange = c.exchange ∧ ((collectFrom c).2).radio = c.radio
      ∧ ((collectFrom c).2).channel = c.channel ∧ ((collectFrom c).2).journal = c.journal
      ∧ ((collectFrom c).2).keypad = c.keypad ∧ ((collectFrom c).2).service = c.service := by
  simp [collectFrom]

@[simp] theorem doCollect_frame (c : Controller) :
    (doCollect c).power = c.power ∧ (doCollect c).params = c.params ∧ (doCollect c).decommissioning = c.decommissioning
      ∧ (doCollect c).account.live = c.account.live ∧ (doCollect c).account.staged = c.account.staged
      ∧ (doCollect c).account.flight = c.account.flight ∧ (doCollect c).account.state = c.account.state
      ∧ (doCollect c).account.conditions = c.account.conditions ∧ (doCollect c).account.metered = c.account.metered
      ∧ (doCollect c).meter = c.meter ∧ (doCollect c).switch = c.switch ∧ (doCollect c).clock = c.clock
      ∧ (doCollect c).store.arrivals = c.store.arrivals ∧ (doCollect c).store.cursor = c.store.cursor
      ∧ (doCollect c).exchange = c.exchange ∧ (doCollect c).radio = c.radio ∧ (doCollect c).channel = c.channel
      ∧ (doCollect c).journal = c.journal ∧ (doCollect c).keypad = c.keypad := by
  unfold doCollect; dsimp only; repeat' split
  all_goals simp

@[simp] theorem beginCommission_frame (p : Params) (c : Controller) :
    (beginCommission p c).power = c.power ∧ (beginCommission p c).params = c.params
      ∧ (beginCommission p c).decommissioning = c.decommissioning ∧ (beginCommission p c).account = c.account
      ∧ (beginCommission p c).meter = c.meter ∧ (beginCommission p c).switch = c.switch
      ∧ (beginCommission p c).clock = c.clock ∧ (beginCommission p c).store = c.store
      ∧ (beginCommission p c).exchange = c.exchange ∧ (beginCommission p c).radio = c.radio
      ∧ (beginCommission p c).channel = c.channel ∧ (beginCommission p c).check = c.check
      ∧ (beginCommission p c).keypad = c.keypad ∧ (beginCommission p c).service = c.service
      ∧ (beginCommission p c).inTransit = c.inTransit ∧ (beginCommission p c).draws = c.draws := by
  unfold beginCommission; dsimp only; repeat' split
  all_goals simp

@[simp] theorem doCommission_frame (l : List Byte) (c : Controller) :
    (doCommission l c).power = c.power ∧ (doCommission l c).params = c.params
      ∧ (doCommission l c).decommissioning = c.decommissioning ∧ (doCommission l c).account = c.account
      ∧ (doCommission l c).meter = c.meter ∧ (doCommission l c).switch = c.switch ∧ (doCommission l c).clock = c.clock
      ∧ (doCommission l c).store = c.store ∧ (doCommission l c).exchange = c.exchange ∧ (doCommission l c).radio = c.radio
      ∧ (doCommission l c).channel = c.channel ∧ (doCommission l c).check = c.check ∧ (doCommission l c).keypad = c.keypad
      ∧ (doCommission l c).inTransit = c.inTransit ∧ (doCommission l c).draws = c.draws := by
  unfold doCommission; repeat' split
  all_goals simp

@[simp] theorem takeCommissioned_frame (c : Controller) :
    (takeCommissioned c).power = c.power ∧ (takeCommissioned c).params = c.params
      ∧ (takeCommissioned c).decommissioning = c.decommissioning ∧ (takeCommissioned c).account = c.account
      ∧ (takeCommissioned c).meter = c.meter ∧ (takeCommissioned c).switch = c.switch
      ∧ (takeCommissioned c).clock = c.clock ∧ (takeCommissioned c).store = c.store
      ∧ (takeCommissioned c).exchange = c.exchange ∧ (takeCommissioned c).radio = c.radio
      ∧ (takeCommissioned c).channel = c.channel ∧ (takeCommissioned c).check = c.check
      ∧ (takeCommissioned c).keypad = c.keypad ∧ (takeCommissioned c).inTransit = c.inTransit
      ∧ (takeCommissioned c).draws = c.draws := by
  unfold takeCommissioned; dsimp only; repeat' split
  all_goals simp

@[simp] theorem toHunt_frame (c : Controller) :
    (toHunt c).power = c.power ∧ (toHunt c).params = c.params ∧ (toHunt c).decommissioning = c.decommissioning
      ∧ (toHunt c).account = c.account ∧ (toHunt c).meter = c.meter ∧ (toHunt c).switch = c.switch
      ∧ (toHunt c).clock = c.clock ∧ (toHunt c).store = c.store ∧ (toHunt c).exchange = c.exchange
      ∧ (toHunt c).radio = c.radio ∧ (toHunt c).channel = c.channel ∧ (toHunt c).journal = c.journal
      ∧ (toHunt c).check = c.check ∧ (toHunt c).keypad = c.keypad ∧ (toHunt c).inTransit = c.inTransit
      ∧ (toHunt c).draws = c.draws := by
  exact ⟨rfl, rfl, rfl, rfl, rfl, rfl, rfl, rfl, rfl, rfl, rfl, rfl, rfl, rfl, rfl, rfl⟩

@[simp] theorem takeHuntByte_frame (b : Byte) (c : Controller) :
    (takeHuntByte b c).power = c.power ∧ (takeHuntByte b c).params = c.params
      ∧ (takeHuntByte b c).decommissioning = c.decommissioning ∧ (takeHuntByte b c).account = c.account
      ∧ (takeHuntByte b c).meter = c.meter ∧ (takeHuntByte b c).switch = c.switch ∧ (takeHuntByte b c).clock = c.clock
      ∧ (takeHuntByte b c).store = c.store ∧ (takeHuntByte b c).exchange = c.exchange ∧ (takeHuntByte b c).radio = c.radio
      ∧ (takeHuntByte b c).channel = c.channel ∧ (takeHuntByte b c).journal = c.journal
      ∧ (takeHuntByte b c).check = c.check ∧ (takeHuntByte b c).keypad = c.keypad
      ∧ (takeHuntByte b c).draws = c.draws := by
  unfold takeHuntByte frameTaken; dsimp only; repeat' split
  all_goals simp

@[simp] theorem finalSent_frame (r : Response) (c : Controller) :
    (finalSent r c).power = c.power ∧ (finalSent r c).params = c.params
      ∧ (finalSent r c).decommissioning = c.decommissioning ∧ (finalSent r c).account = c.account
      ∧ (finalSent r c).meter = c.meter ∧ (finalSent r c).switch = c.switch ∧ (finalSent r c).clock = c.clock
      ∧ (finalSent r c).store = c.store ∧ (finalSent r c).exchange = c.exchange ∧ (finalSent r c).radio = c.radio
      ∧ (finalSent r c).channel = c.channel ∧ (finalSent r c).journal = c.journal ∧ (finalSent r c).check = c.check
      ∧ (finalSent r c).keypad = c.keypad ∧ (finalSent r c).draws = c.draws := by
  unfold finalSent; dsimp only; repeat' split
  all_goals simp

@[simp] theorem takeSent_frame (c : Controller) :
    (takeSent c).power = c.power ∧ (takeSent c).params = c.params ∧ (takeSent c).decommissioning = c.decommissioning
      ∧ (takeSent c).account = c.account ∧ (takeSent c).meter = c.meter ∧ (takeSent c).switch = c.switch
      ∧ (takeSent c).clock = c.clock ∧ (takeSent c).store = c.store ∧ (takeSent c).exchange = c.exchange
      ∧ (takeSent c).radio = c.radio ∧ (takeSent c).channel = c.channel ∧ (takeSent c).journal = c.journal
      ∧ (takeSent c).check = c.check ∧ (takeSent c).keypad = c.keypad ∧ (takeSent c).draws = c.draws := by
  unfold takeSent; dsimp only; repeat' split
  all_goals simp

end Sys2Proof.Machine
end

