-- ==== Sys2Proof/Laws/Lookups.lean ====
section
/-! SUPPORT. What the model's searches find and its cuts of bytes and digits give: one lemma for each way a search ends, so
that no proof unfolds the search. -/

namespace Sys2Proof.Machine

/-! ### Slots of a table (R97, R103, R104) -/

/-- The slot that `emptySlot` names is empty and no earlier one is. -/
theorem emptySlot_some (l : List SlotView) : ∀ n k : Nat, emptySlot n l = some k →
    n ≤ k ∧ l[k - n]? = some .empty ∧ ∀ m : Nat, m < k - n → l[m]? ≠ some .empty := by
  induction l with
  | nil => intro n k h; cases h
  | cons a l ih =>
    intro n k h
    cases a with
    | empty => cases h; simp
    | entry hop arr y =>
      obtain ⟨h1, h2, h3⟩ := ih (n + 1) k h
      obtain ⟨d, rfl⟩ := Nat.exists_eq_add_of_le h1
      rw [show n + 1 + d - (n + 1) = d by omega] at h2 h3
      rw [show n + 1 + d - n = d + 1 by omega]
      refine ⟨by omega, by simpa using h2, ?_⟩
      rintro (_ | m) hm
      · simp
      · simpa using h3 m (by omega)

/-- `emptySlot` names no slot exactly where none is empty. -/
theorem emptySlot_none (l : List SlotView) : ∀ n : Nat, emptySlot n l = none ↔ SlotView.empty ∉ l := by
  induction l with
  | nil => simp [emptySlot]
  | cons a l ih => intro n; cases a <;> simp [emptySlot, ih]

/-- The victim that `victimFrom` names is an entry that may yield, of a hop above the newcomer's, with its hop and arrival. -/
theorem victimFrom_some (h : Nat) (l : List SlotView) : ∀ n k vh va : Nat, victimFrom h n l = some (k, vh, va) →
    n ≤ k ∧ l[k - n]? = some (.entry vh va true) ∧ h < vh := by
  induction l with
  | nil => intro n k vh va hv; cases hv
  | cons a l ih =>
    intro n k vh va hv
    have later : victimFrom h (n + 1) l = some (k, vh, va) →
        n ≤ k ∧ (a :: l)[k - n]? = some (.entry vh va true) ∧ h < vh := by
      intro hv
      obtain ⟨h1, h2, h3⟩ := ih (n + 1) k vh va hv
      obtain ⟨d, rfl⟩ := Nat.exists_eq_add_of_le h1
      rw [show n + 1 + d - (n + 1) = d by omega] at h2
      rw [show n + 1 + d - n = d + 1 by omega]
      exact ⟨by omega, by simpa using h2, h3⟩
    cases a with
    | empty => exact later hv
    | entry hop arr y =>
      simp only [victimFrom] at hv
      split at hv
      · split at hv
        · rename_i hc; cases hv; simp only [Bool.and_eq_true, decide_eq_true_eq] at hc; simp [hc.1, hc.2]
        · cases hv
      · rename_i he
        split at hv
        · rename_i hc; cases hv; simp only [Bool.and_eq_true, decide_eq_true_eq] at hc; simp [hc.1.1, hc.1.2]
        · cases hv; exact later he

/-- `victimFrom` names none only where every entry that may yield has a hop of the newcomer's or less. -/
theorem victimFrom_none (h : Nat) (l : List SlotView) : ∀ n : Nat, victimFrom h n l = none →
    ∀ hop arr : Nat, SlotView.entry hop arr true ∈ l → hop ≤ h := by
  induction l with
  | nil => simp
  | cons a l ih =>
    intro n hv hop arr hm
    cases a with
    | empty => exact ih (n + 1) hv hop arr (by simpa using hm)
    | entry hop' arr' y =>
      simp only [victimFrom] at hv
      split at hv
      · rename_i he
        split at hv
        · cases hv
        · rename_i hc
          rcases List.mem_cons.mp hm with heq | hm
          · cases heq; simpa using hc
          · exact ih (n + 1) he hop arr hm
      · split at hv <;> cases hv

/-- No entry that may yield has a greater hop than the victim, and none of the same hop is earlier (R97). -/
theorem victimFrom_greatest (h : Nat) (l : List SlotView) : ∀ n k vh va : Nat, victimFrom h n l = some (k, vh, va) →
    ∀ m hop arr : Nat, l[m]? = some (.entry hop arr true) → hop < vh ∨ hop = vh ∧ (va < arr ∨ va = arr ∧ k ≤ n + m) := by
  induction l with
  | nil => intro n k vh va hv; cases hv
  | cons a l ih =>
    intro n k vh va hv m hop arr hm
    cases a with
    | empty =>
      cases m with
      | zero => cases hm
      | succ m => have := ih (n + 1) k vh va hv m hop arr (by simpa using hm); omega
    | entry hop' arr' y =>
      simp only [victimFrom] at hv
      split at hv
      · rename_i he
        split at hv
        · rename_i hc
          cases hv
          cases m with
          | zero => cases hm; simp
          | succ m =>
            have := victimFrom_none h l (n + 1) he hop arr (List.mem_of_getElem? (i := m) (by simpa using hm))
            simp at hc
            omega
        · cases hv
      · rename_i k' vh' va' he
        have tail := ih (n + 1) k' vh' va' he
        have above := (victimFrom_some h l (n + 1) k' vh' va' he).2.2
        split at hv
        · rename_i hc
          cases hv
          simp at hc
          cases m with
          | zero => cases hm; simp
          | succ m => have := tail m hop arr (by simpa using hm); omega
        · rename_i hc
          cases hv
          simp at hc
          cases m with
          | zero => cases hm; have := hc rfl; omega
          | succ m => have := tail m hop arr (by simpa using hm); omega

/-- The entry that `earliestFrom` names is selected, and no entry selected is earlier (R97). -/
theorem earliestFrom_some (sel : Nat → ReceiptEntry → Bool) (l : List (Option ReceiptEntry)) :
    ∀ (n k : Nat) (e : ReceiptEntry), earliestFrom sel n l = some (k, e) →
      n ≤ k ∧ l[k - n]? = some (some e) ∧ sel k e = true
        ∧ ∀ (m : Nat) (f : ReceiptEntry), l[m]? = some (some f) → sel (n + m) f = true →
          e.arrival < f.arrival ∨ e.arrival = f.arrival ∧ k ≤ n + m := by
  have none_selected : ∀ (l : List (Option ReceiptEntry)) (n : Nat), earliestFrom sel n l = none →
      ∀ (m : Nat) (f : ReceiptEntry), l[m]? = some (some f) → sel (n + m) f = false := by
    intro l
    induction l with
    | nil => simp
    | cons a l ih =>
      intro n h m f hm
      have h' : earliestFrom sel (n + 1) l = none ∧ (a = some f → m = 0 → sel n f = false) := by
        cases a with
        | none => exact ⟨h, by simp⟩
        | some a =>
          simp only [earliestFrom] at h
          split at h
          · split at h
            · cases h
            · rename_i he hs; exact ⟨he, fun hf _ => by cases hf; simpa using hs⟩
          · split at h <;> cases h
      cases m with
      | zero => exact h'.2 (by simpa using hm) rfl
      | succ m => rw [show n + (m + 1) = n + 1 + m by omega]; exact ih (n + 1) h'.1 m f (by simpa using hm)
  induction l with
  | nil => intro n k e h; cases h
  | cons a l ih =>
    intro n k e h
    have later : ∀ k' e', earliestFrom sel (n + 1) l = some (k', e') → n ≤ k' ∧ (a :: l)[k' - n]? = some (some e')
        ∧ sel k' e' = true ∧ ∀ (m : Nat) (f : ReceiptEntry), l[m]? = some (some f) → sel (n + (m + 1)) f = true →
          e'.arrival < f.arrival ∨ e'.arrival = f.arrival ∧ k' ≤ n + (m + 1) := by
      intro k' e' h
      obtain ⟨h1, h2, h3, h4⟩ := ih (n + 1) k' e' h
      obtain ⟨d, rfl⟩ := Nat.exists_eq_add_of_le h1
      rw [show n + 1 + d - (n + 1) = d by omega] at h2
      rw [show n + 1 + d - n = d + 1 by omega]
      refine ⟨by omega, by simpa using h2, h3, fun m f hm hs => ?_⟩
      rw [show n + (m + 1) = n + 1 + m by omega] at hs ⊢
      exact h4 m f hm hs
    cases a with
    | none =>
      obtain ⟨h1, h2, h3, h4⟩ := later k e h
      refine ⟨h1, h2, h3, fun m f hm hs => ?_⟩
      cases m with
      | zero => cases hm
      | succ m => exact h4 m f (by simpa using hm) hs
    | some a =>
      simp only [earliestFrom] at h
      split at h
      · rename_i he
        split at h
        · rename_i hs
          cases h
          refine ⟨Nat.le_refl _, by simp, hs, fun m f hm hf => ?_⟩
          cases m with
          | zero => cases hm; exact .inr ⟨rfl, Nat.le_refl _⟩
          | succ m =>
            have := none_selected l (n + 1) he m f (by simpa using hm)
            rw [show n + 1 + m = n + (m + 1) by omega, hf] at this
            cases this
        · cases h
      · rename_i k' e' he
        obtain ⟨h1, h2, h3, h4⟩ := later k' e' he
        split at h
        · rename_i hs
          cases h
          simp only [Bool.and_eq_true, decide_eq_true_eq] at hs
          refine ⟨Nat.le_refl _, by simp, hs.1, fun m f hm hf => ?_⟩
          cases m with
          | zero => cases hm; exact .inr ⟨rfl, Nat.le_refl _⟩
          | succ m => have := h4 m f (by simpa using hm) hf; omega
        · rename_i hs
          cases h
          refine ⟨h1, h2, h3, fun m f hm hf => ?_⟩
          cases m with
          | zero =>
            cases hm
            have : ¬ a.arrival ≤ e.arrival := fun hle => hs (by simpa using ⟨hf, hle⟩)
            exact .inl (by omega)
          | succ m => exact h4 m f (by simpa using hm) hf

/-! ### Bytes and digits -/

/-- A field of the bytes from the byte `a` on lies `a` bytes further in the whole. -/
theorem fieldAt_drop (bs : List Byte) (a p n : Nat) : fieldAt (bs.drop a) p n = fieldAt bs (a + p) n := by
  simp [fieldAt, List.drop_drop]

/-- A field that ends within the first `m` bytes is the same in them and in the whole. -/
theorem fieldAt_take (bs : List Byte) (p n m : Nat) (h : p + n ≤ m) : fieldAt (bs.take m) p n = fieldAt bs p n := by
  unfold fieldAt
  rw [List.drop_take, List.take_take, Nat.min_eq_left (by omega)]

/-- Bytes cut in `n` pieces of a length: the `j`-th begins at `j` times that length. -/
theorem pieces_eq_map (len : Nat) : ∀ (n : Nat) (bs : List Byte),
    pieces bs len n = (List.range n).map (fun j => (bs.drop (len * j)).take len) := by
  intro n
  induction n with
  | zero => intro bs; rfl
  | succ n ih =>
    intro bs
    rw [pieces, ih, List.range_succ_eq_map]
    simp [List.map_map, List.drop_drop, Nat.mul_succ, Nat.add_comm]

/-- The decimal digits of a number of at most `n` of them: digits, most significant first, without leading zeros. -/
theorem digitsOf_value : ∀ n v : Nat, v < 10 ^ n → (digitsOf n v).foldl (fun x d => 10 * x + d) 0 = v
    ∧ (∀ d : Nat, d ∈ digitsOf n v → d < 10) ∧ (0 < n → digitsOf n v ≠ []) ∧ ((digitsOf n v).head? = some 0 → v = 0) := by
  intro n
  induction n with
  | zero => intro v hv; simp [digitsOf] at *; omega
  | succ n ih =>
    intro v hv
    unfold digitsOf
    split
    · simpa using by omega
    · obtain ⟨h1, h2, h3, h4⟩ := ih (v / 10) (by rw [Nat.pow_succ] at hv; omega)
      have hn : 0 < n := Nat.pos_of_ne_zero (by rintro rfl; simp at hv; omega)
      refine ⟨?_, ?_, by simp, ?_⟩
      · rw [List.foldl_append, h1]; simp; omega
      · intro d hd
        rcases List.mem_append.mp hd with hd | hd
        · exact h2 d hd
        · simp at hd; omega
      · intro hz
        rw [List.head?_append_of_ne_nil _ (h3 hn)] at hz
        have := h4 hz; omega

end Sys2Proof.Machine
end

