-- ==== Sys2Proof/Laws/State.lean ====
section
/-! SUPPORT. The small lemmas of the state's named updates: what each one writes, true by unfolding it once, and how a
command's wrapper answers. -/

namespace Sys2Proof.Machine

/-! ### The wrappers of a command -/

theorem onMain_powered {f : Controller → Controller} {s : State} (h : s.ctl.power.mainOn = true) :
    onMain f s = .next { s with ctl := f s.ctl } := by simp [onMain, h]

theorem onMain_unpowered {f : Controller → Controller} {s : State} (h : s.ctl.power.mainOn = false) :
    onMain f s = .next s := by simp [onMain, h]

@[simp] theorem onPart_next (f : Controller → Controller) (s : State) : onPart f s = .next { s with ctl := f s.ctl } := rfl

theorem onAirwaves_active {busy : Bool} {f : Controller → Controller} {s : State} (h : s.ctl.power.mainOn = true)
    (ha : s.ctl.radio.active = true) :
    onAirwaves busy f s = .next { s with ctl := choose (f (setBusy busy s.ctl)) } := by
  simp [onAirwaves, onMain, setBusy, h, ha]

theorem onAirwaves_inactive {busy : Bool} {f : Controller → Controller} {s : State} (h : s.ctl.power.mainOn = true)
    (ha : s.ctl.radio.active = false) : onAirwaves busy f s = .next { s with ctl := setBusy busy s.ctl } := by
  simp [onAirwaves, onMain, setBusy, h, ha]

/-- What `onMain` gives is a next state whose Controller is the old one or `f` of it. -/
theorem onMain_cases {f : Controller → Controller} {s t : State} (h : onMain f s = .next t) :
    (s.ctl.power.mainOn = true ∧ t = { s with ctl := f s.ctl }) ∨ (s.ctl.power.mainOn = false ∧ t = s) := by
  cases hp : s.ctl.power.mainOn
  · rw [onMain_unpowered hp] at h; cases h; exact .inr ⟨rfl, rfl⟩
  · rw [onMain_powered hp] at h; cases h; exact .inl ⟨rfl, rfl⟩

/-! ### Reports and free values -/

@[simp] theorem emit_inTransit (i : Instr) (c : Controller) : (emit i c).inTransit = c.inTransit ++ [i] := rfl

@[simp] theorem arrive_inTransit (i : Instr) (c : Controller) : (arrive i c).inTransit = c.inTransit.erase i := rfl

@[simp] theorem report_inTransit (x : Condition) (c : Controller) :
    (report x c).inTransit = c.inTransit ++ [.conditionReport (.raised x)] := rfl

@[simp] theorem afterDraw_draws (c : Controller) : (afterDraw c).draws = c.draws + 1 := rfl

theorem drawn_bounds (lo hi : Nat) (c : Controller) (h : lo ≤ hi) : lo ≤ drawn lo hi c ∧ drawn lo hi c ≤ hi := by
  unfold drawn
  have := Nat.mod_lt (Config.draw c.draws) (show 0 < hi - lo + 1 by omega)
  omega

/-! ### The condition set and the pending-own list -/

@[simp] theorem latch_conditions (x : Condition) (c : Controller) :
    (latch x c).account.conditions = setWith x c.account.conditions := rfl

@[simp] theorem unlatch_conditions (x : Condition) (c : Controller) :
    (unlatch x c).account.conditions = setWithout x c.account.conditions := rfl

theorem insertEntry_length (e : PendingEntry) (l : List PendingEntry) : (insertEntry e l).length = l.length + 1 := by
  induction l with
  | nil => rfl
  | cons x l ih => unfold insertEntry; split <;> simp [ih]

/-- A newcomer never makes the list longer than four entries (R36). -/
theorem listWith_length {e : PendingEntry} {l : List PendingEntry} (h : l.length ≤ 4) : (listWith e l).length ≤ 4 := by
  unfold listWith
  rw [insertEntry_length]
  split
  · omega
  · rw [List.length_dropLast]; omega

/-- The retired-key list stays within its 32 places (R98). -/
theorem retiredWith_length {k : ItemKey} {l : List ItemKey} (h : l.length ≤ 32) : (retiredWith k l).length ≤ 32 := by
  unfold retiredWith
  split
  · exact h
  · split <;> simp <;> omega

/-! ### The checked memory while it is clean -/

theorem readUnits_clean {sel : EntryUnit → Bool} {c : Controller} (h : c.check.bad = []) : readUnits sel c = c := by
  simp [readUnits, h]

theorem accountReads_clean {c : Controller} (h : c.check.bad = []) : accountReads c = true := by simp [accountReads, h]

theorem checkAccount_clean {c : Controller} (h : c.check.bad = []) : checkAccount c = c := by simp [checkAccount, h]

theorem readAccount_clean {c : Controller} (h : c.check.bad = []) : readAccount c = c := by
  rw [readAccount, accountReads_clean h, if_pos rfl, checkAccount_clean h]

theorem readPendingOwn_clean {c : Controller} (h : c.check.bad = []) : readPendingOwn c = c := readUnits_clean h

/-- The end of an examination while no word is bad: the list's marks as they stand decide (R37). -/
theorem endExamination_clean {c : Controller} (h : c.check.bad = []) :
    endExamination c = if c.account.pendingOwn.any (fun e => e.unexamined) then trigger c else c := by
  rw [endExamination, readPendingOwn_clean h]

theorem plantFault_clean {g : Region} {u : EntryUnit} {c : Controller} (h : c.check.armed = none) : plantFault g u c = c := by
  simp [plantFault, h]

theorem clearWords_clean {u : EntryUnit} {c : Controller} (h : c.check.bad = []) : clearWords u c = c := by
  have hc : ({ c.check with bad := [] } : Check) = c.check := by rw [← h]
  simp only [clearWords, h, List.filter_nil, hc]

theorem clearAccount_clean {c : Controller} (h : c.check.bad = []) : clearAccount c = c := by
  have hc : ({ c.check with bad := [] } : Check) = c.check := by rw [← h]
  simp only [clearAccount, h, List.filter_nil, hc]

/-- With clean memory, a staged record that goes takes nothing else with it. -/
theorem withoutStaged_clean {c : Controller} (h : c.check.bad = []) :
    withoutStaged c = { c with account := { c.account with staged := none } } := clearWords_clean h

/-- No word of the staged record outlives it (R172). -/
theorem withoutStaged_words (c : Controller) (w : BadWord) :
    w ∈ (withoutStaged c).check.bad ↔ w ∈ c.check.bad ∧ w.unit ≠ .staged := by
  simp [withoutStaged, clearWords]

theorem storeWritten_clean {u : EntryUnit} {c : Controller} (h : cleanMemory c) : storeWritten u c = c := by
  rw [storeWritten, clearWords_clean h.1, plantFault_clean h.2]

theorem accountWritten_clean {c : Controller} (h : c.check.armed = none) : accountWritten c = c := plantFault_clean h

theorem accountRewritten_clean {c : Controller} (h : cleanMemory c) : accountRewritten c = c := by
  rw [accountRewritten, clearAccount_clean h.1, plantFault_clean h.2]

theorem stagedFormed_clean {c : Controller} (h : cleanMemory c) : stagedFormed c = c := by
  rw [stagedFormed, clearWords_clean h.1, plantFault_clean h.2]

/-- A change of the live record while no fault is armed. -/
theorem writeLive_clean {f : Record → Record} {c : Controller} (h : c.check.armed = none) :
    writeLive f c = { c with account := { c.account with live := f c.account.live } } := by
  unfold writeLive
  split
  · rename_i e; rw [e]
  · exact accountWritten_clean h

/-- A change of both records while no fault is armed. -/
theorem writeBoth_clean {f : Record → Record} {c : Controller} (h : c.check.armed = none) :
    writeBoth f c = { c with account := { c.account with live := f c.account.live, staged := c.account.staged.map f } } := by
  unfold writeBoth
  split
  · rename_i e; rw [e.1, e.2]
  · exact plantFault_clean h

/-- Where neither record changes, nothing is written and an armed fault is kept (R179). -/
theorem writeBoth_same {f : Record → Record} {c : Controller} (hl : f c.account.live = c.account.live)
    (hs : c.account.staged.map f = c.account.staged) : writeBoth f c = c := by simp [writeBoth, hl, hs]

/-- Reading the two tables, the retired-key list and the pending-own list changes nothing while no word is bad. -/
theorem readTables_clean {c : Controller} (h : c.check.bad = []) : readTables c = c := readUnits_clean h

theorem readVouchers_clean {c : Controller} (h : c.check.bad = []) : readVouchers c = c := readUnits_clean h

theorem readForCarry_clean {keys : List ItemKey} {c : Controller} (h : c.check.bad = []) : readForCarry keys c = c :=
  readUnits_clean h

theorem readReceipts_clean {c : Controller} (h : c.check.bad = []) : readReceipts c = c := readUnits_clean h

theorem readRetired_clean {c : Controller} (h : c.check.bad = []) : readRetired c = c := readUnits_clean h

theorem readForEntry_clean {c : Controller} (h : c.check.bad = []) : readForEntry c = c := by
  rw [readForEntry, readVouchers_clean h, readRetired_clean h]

theorem readLog_clean {c : Controller} (h : c.check.bad = []) : readLog c = c := by simp [readLog, readUnits_clean h]

theorem readStore_clean {keys : List ItemKey} {c : Controller} (h : c.check.bad = []) : readStore keys c = c := by
  simp only [readStore, readUnits_clean h, readLog_clean h, readPendingOwn_clean h, ite_self]

theorem readForTests_clean {keys : List ItemKey} {c : Controller} (h : c.check.bad = []) : readForTests keys c = c := by
  rw [readForTests, readStore_clean h, readAccount_clean h, ite_self]

theorem readAsks_clean {c : Controller} (h : c.check.bad = []) : readAsks c = c := by
  have e : c.exchange.askQueue.filter (fun e => !askerLost [] e.asker) = c.exchange.askQueue := by simp [askerLost]
  simp only [readAsks, readUnits_clean h, h, e]

theorem readQueue_clean {c : Controller} (h : c.check.bad = []) : readQueue c = c := by
  simp only [readQueue, readAsks_clean h, h]
  split
  · rfl
  · simp [askerLost]

/-- A receipt filled while no word is bad: the record reads, so that only R39 decides (R39, R176). -/
theorem whenReceipt_clean {make other : Controller → Controller} {c : Controller} (h : c.check.bad = []) :
    whenReceipt make other c = if canMakeReceipt c then make c else other c := by
  simp only [whenReceipt, receiptPossible, accountReads_clean h, readAccount_clean h, Bool.true_and]

/-- A condition raised while no word is bad: R44 as it stands. -/
theorem raise_clean {x : Condition} {c : Controller} (h : c.check.bad = []) :
    raise x c = if callsForStatus x c then dueStatus (latch x c) else latch x c := by
  have hl : (latch x c).check.bad = [] := h
  have hs : statusDayPassed (latch x c) = statusDayPassed c := rfl
  unfold raise callsForStatus
  cases mayCallForStatus x c <;> simp [accountReads_clean h, readAccount_clean hl, hs]

/-- While no entry of the pending-own list is to be examined and no application is in flight, a pass begins and ends at
once (R37). -/
theorem runDue_passesOver {c : Controller} (hb : c.check.bad = []) (hf : c.account.flight = none)
    (hp : nextToExamine [] c.account.pendingOwn = none) (hpa : c.account.pass = none) (hh : c.account.live.held = false)
    (ha : accountListens c = true) :
    runDue (trigger c) = { c with account := { c.account with passDue := false } } := by
  have ha' : c.account.live.commissioned = true ∧ c.decommissioning = false := by simpa [accountListens] using ha
  obtain ⟨power, params, dec, acc, meter, sw, clock, store, ex, radio, ch, j, chk, kp, sv, it, dr⟩ := c
  obtain ⟨live, st, fl, stt, po, cond, met, so, pa, pd⟩ := acc
  dsimp only at *
  subst hf hpa
  unfold runDue
  simp only [trigger]
  rw [runPasses]
  simp only [Option.isSome_none, Bool.false_eq_true, if_false, mayStartPass, hh, accountListens, ha'.1, ha'.2,
    Bool.not_false, Bool.and_self, if_true]
  rw [runPasses]
  simp only [Option.isSome_none, Bool.false_eq_true, if_false]
  rw [readPendingOwn_clean hb]
  simp only [hp]
  rw [runPasses]
  simp only [Option.isSome_none, Bool.false_eq_true, if_false, mayStartPass, Bool.false_and]

/-- While the pending-own list is empty and no application is in flight, a pass begins and ends at once (R36). -/
theorem runDue_quiet {c : Controller} (hb : c.check.bad = []) (hf : c.account.flight = none)
    (hp : c.account.pendingOwn = []) (hpa : c.account.pass = none) (hh : c.account.live.held = false)
    (ha : accountListens c = true) :
    runDue (trigger c) = { c with account := { c.account with passDue := false } } :=
  runDue_passesOver hb hf (by rw [hp]; rfl) hpa hh ha

/-- A report on a commit of an application that HELD has overtaken leaves the transit and the list of such reports alone. -/
theorem takeReport_overtaken {i : Instr} {f : Controller → Controller} {c : Controller}
    (h : c.account.overtaken.contains i = true) :
    takeReport i f c
      = { arrive i c with account := { c.account with overtaken := c.account.overtaken.erase i } } := by
  show (if c.account.overtaken.contains i = true then _ else _) = _
  rw [if_pos h]; rfl

/-- Every other report on a commit is taken. -/
theorem takeReport_fresh {i : Instr} {f : Controller → Controller} {c : Controller}
    (h : c.account.overtaken.contains i = false) : takeReport i f c = f (arrive i c) := by
  show (if c.account.overtaken.contains i = true then _ else _) = _
  rw [h]; rfl

/-! ### The service line, the radio and the nonvolatile store -/

@[simp] theorem toHunt_service (c : Controller) : (toHunt c).service = { c.service with line := .hunt, frame := [] } := rfl

/-- A frame taken while a command is in progress is answered BUSY (R190). -/
theorem frameTaken_busy {code : Nat} {go : Controller → Controller} {c : Controller}
    (h : c.service.inProgress.isSome = true) : frameTaken code go c = respondPart code .busy [] false c := if_pos h

/-- A frame taken while none is in progress puts its command in progress (R190). -/
theorem frameTaken_free {code : Nat} {go : Controller → Controller} {c : Controller} (h : c.service.inProgress = none) :
    frameTaken code go c = go { c with service := { c.service with inProgress := some code } } := by simp [frameTaken, h]

/-- A command that did not come over the line's bytes is taken where it is carried out, and finds the line in HUNT (R189). -/
theorem takeCommand_whole {i : Instr} {code : Nat} {f : Controller → Controller} {c : Controller} (h : i ∉ c.inTransit) :
    takeCommand i code f c = frameTaken code f (toHunt c) := by simp [takeCommand, h]

/-- A command collected from the line's bytes is in progress already, and leaves the line as it is (R189, R190). -/
theorem takeCommand_collected {i : Instr} {code : Nat} {f : Controller → Controller} {c : Controller}
    (h : i ∈ c.inTransit) :
    takeCommand i code f c = f (arrive i { c with service := { c.service with inProgress := some code } }) := by
  simp [takeCommand, h]

@[simp] theorem senseOut_request (c : Controller) : (senseOut c).isSome = c.meter.request := by
  unfold senseOut; cases c.meter.request <;> rfl

/-- A page written whole is valid exactly when its fields are in range: its CRC-16 passes (R10, R160). -/
theorem pageOf_crc (i : Image) : pageOf i = .holds i (crc16 (imageBytes i)) := rfl

/-- A commissioning block written whole is good exactly when its values are in range (R10, R161). -/
@[simp] theorem goodBlock_blockOf (p : Params) : goodBlock (blockOf p) = if paramsInRange p then some p else none := by
  simp [goodBlock, blockOf]

/-! ### The derivation of the account state (R23) -/

theorem derive_same {c : Controller} (h : deriveState (lowThreshold c) c.account.live = c.account.state) : derive c = c := by
  simp [derive, h]

/-- A new account state is made known to the Meter and the indicator, and is on its way to the switch. -/
theorem derive_new {c : Controller} (h : deriveState (lowThreshold c) c.account.live ≠ c.account.state) :
    derive c = emit (.accountStateToSwitch (deriveState (lowThreshold c) c.account.live))
      { c with
        account := { c.account with state := deriveState (lowThreshold c) c.account.live }
        meter := { c.meter with known := deriveState (lowThreshold c) c.account.live }
        keypad := { c.keypad with known := deriveState (lowThreshold c) c.account.live } } := by
  simp [derive, h]

@[simp] theorem derive_state (c : Controller) : (derive c).account.state = deriveState (lowThreshold c) c.account.live := by
  by_cases h : deriveState (lowThreshold c) c.account.live = c.account.state
  · rw [derive_same h, h]
  · rw [derive_new h]; rfl

/-! ### The record that an image is taken from (R31, R165) -/

theorem verifiedLive_waiting {c : Controller} (h : flightVerified c = false) : verifiedLive c = c := by simp [verifiedLive, h]

theorem verifiedLive_verified {c : Controller} {r : Record} (h : flightVerified c = true) (hs : c.account.staged = some r) :
    verifiedLive c = derive (writeLive (fun _ => r) (withoutStaged c)) := by
  simp [verifiedLive, h, hs]

end Sys2Proof.Machine
end

