-- ==== Sys2Proof/Tests/Slice0.lean ====
section
/-! SUPPORT. The model's own tests: the checks of the well-formedness test, figures the spec works out, single steps, and for
every statement with hypotheses a state and operands that meet them. -/

namespace Sys2Proof.Tests

open Sys2Proof.Machine

/-! ### Helpers -/

/-- Commissioning values in range (R192). -/
def par : Params :=
  { kit := 731502, key := List.replicate 16 7#8, role := .ordinary, wake := 1000, listenHold := 10, hailPeriod := 60
    hopLimit := 8, burst := 2, allowance := 20, cap := 5, lowThreshold := 100, fallback := 20, relayCutoff := 1400
    receiptLife := 14, reportInterval := 7, capture := .last }

/-- The record of a commissioned account in CREDITED. -/
def rec0 : Record :=
  { Record.blank with commissioned := true, energy := 500, lifeline := 20, base := 41, marks := 6, counter := some 1, reserve := 16 }

/-- A commissioned ORDINARY station with its radio listening. -/
def base : Controller :=
  { Controller.reset with
    params := some par
    account := { Account.blank with live := rec0, state := .credited }
    meter := { Meter.started .sampling with known := .credited }
    switch := { Switch.started with state := .closed, known := .credited }
    radio := { Radio.started true 0 with rx := .listen, hold := some 1000 }
    exchange := Exchange.started (some 60000) 7 0
    journal := Journal.started (List.replicate 16 .erased) (blockOf par) }

/-- A state with a Controller and no command waiting. -/
def st (c : Controller) : State := { ctl := c, pending := [] }

/-- The Controller after a command that answers a next state. -/
def after (i : Instr) (c : Controller) : Controller :=
  match exec i (st c) with
  | .next s => s.ctl
  | .fault _ => c
  | .refused _ => c

def header0 : FrameHeader :=
  { sender := 50, addressee := 0, day := 12586, agent := false, timeSet := true, relaySuspended := false, exchange := 9 }

def hail0 : HailFrame := { header := header0, day := 12586, second := 100, freeVouchers := 48, freeReceipts := 48, offers := [] }

def ask0 : AskFrame := { header := header0, keys := [⟨1, 50, 3⟩] }

def carry0 : CarryFrame := { header := header0, burst := 0, last := true, vouchers := [], receipts := [] }

def took0 : TookFrame := { header := header0, burst := 0, keys := [] }

/-- A table with one entry, in its first slot. -/
theorem only_first {α : Type} (e : α) (n i : Nat) (f : α) (h : (some e :: List.replicate n none)[i]? = some (some f)) :
    i = 0 ∧ f = e := by
  cases i with
  | zero => cases h; exact ⟨rfl, rfl⟩
  | succ i =>
    rw [List.getElem?_cons_succ, List.getElem?_replicate] at h
    split at h <;> cases h

/-- A full table of one entry's copies. -/
theorem all_copies {α : Type} (e : α) (n i : Nat) (f : α) (h : (List.replicate n (some e))[i]? = some (some f)) : f = e := by
  rw [List.getElem?_replicate] at h
  split at h <;> cases h
  rfl

/-! ### The checks of the well-formedness test refuse -/

theorem test_ill_day : (Instr.dayRolloverAccount 65536).wellFormed = false := by decide
theorem test_ill_store_day : (Instr.dayRolloverStore 65536).wellFormed = false := by decide
theorem test_ill_journal_day : (Instr.dayRolloverJournal 65536).wellFormed = false := by decide
theorem test_ill_hail_sender : (Instr.hailTimeArrival 4294967296 true true 0 0).wellFormed = false := by decide
theorem test_ill_hail_day : (Instr.hailTimeArrival 1 true true 65536 0).wellFormed = false := by decide
theorem test_ill_hail_second : (Instr.hailTimeArrival 1 true true 0 16777216).wellFormed = false := by decide
theorem test_ill_sender_zero : (Instr.askReceived { ask0 with header := { header0 with sender := 0 } }).wellFormed = false := by decide
theorem test_ill_sender_high :
    (Instr.askReceived { ask0 with header := { header0 with sender := 100000000 } }).wellFormed = false := by decide
theorem test_ill_addressee :
    (Instr.askReceived { ask0 with header := { header0 with addressee := 4294967296 } }).wellFormed = false := by decide
theorem test_ill_header_day : (Instr.askReceived { ask0 with header := { header0 with day := 65536 } }).wellFormed = false := by decide
theorem test_ill_exchange :
    (Instr.askReceived { ask0 with header := { header0 with exchange := 256 } }).wellFormed = false := by decide
theorem test_ill_hail_days_differ : (Instr.hailReceived { hail0 with day := 12587 }).wellFormed = false := by decide
theorem test_ill_hail_seconds : (Instr.hailReceived { hail0 with second := 16777216 }).wellFormed = false := by decide
theorem test_ill_free_vouchers : (Instr.hailReceived { hail0 with freeVouchers := 49 }).wellFormed = false := by decide
theorem test_ill_free_receipts : (Instr.hailReceived { hail0 with freeReceipts := 49 }).wellFormed = false := by decide
theorem test_ill_eleven_offers :
    (Instr.hailReceived { hail0 with offers := List.replicate 11 ⟨⟨1, 50, 3⟩, 0⟩ }).wellFormed = false := by decide
theorem test_ill_offer_hop : (Instr.hailReceived { hail0 with offers := [⟨⟨1, 50, 3⟩, 256⟩] }).wellFormed = false := by decide
theorem test_ill_seven_keys : (Instr.askReceived { ask0 with keys := List.replicate 7 ⟨1, 50, 3⟩ }).wellFormed = false := by decide
theorem test_ill_key_type : (Instr.askReceived { ask0 with keys := [⟨256, 50, 3⟩] }).wellFormed = false := by decide
theorem test_ill_key_kit : (Instr.askReceived { ask0 with keys := [⟨1, 4294967296, 3⟩] }).wellFormed = false := by decide
theorem test_ill_key_serial : (Instr.askReceived { ask0 with keys := [⟨1, 50, 65536⟩] }).wellFormed = false := by decide
theorem test_ill_carry_burst : (Instr.carryReceived { carry0 with burst := 256 } false).wellFormed = false := by decide
theorem test_ill_five_items :
    (Instr.carryReceived { carry0 with vouchers := List.replicate 5 ⟨1, 1, 1, 1, 1, 1, 1⟩ } false).wellFormed = false := by decide
theorem test_ill_voucher_item :
    (Instr.carryReceived { carry0 with vouchers := [⟨1, 1, 1, 16777216, 1, 1, 1⟩] } false).wellFormed = false := by decide
theorem test_ill_receipt_item :
    (Instr.carryReceived { carry0 with receipts := [⟨1, 1, 1, 1, 1, 1, 1, 65536, 1, 1, 1, 1, 1, 1, 1⟩] } false).wellFormed = false := by
  decide
theorem test_ill_took_burst : (Instr.tookReceived { took0 with burst := 256 } false).wellFormed = false := by decide
theorem test_ill_five_took_keys :
    (Instr.tookReceived { took0 with keys := List.replicate 5 ⟨1, 50, 3⟩ } false).wellFormed = false := by decide
theorem test_ill_frame_length : (Instr.frameComplete (List.replicate 145 0#8)).wellFormed = false := by
  decide +kernel
theorem test_ill_reserve_low : (Instr.stagedCommitVerified 15).wellFormed = false := by decide
theorem test_ill_reserve_high : (Instr.periodicCommitVerified 65552).wellFormed = false := by decide
theorem test_ill_reserve_step : (Instr.stagedCommitVerified 17).wellFormed = false := by decide
theorem test_ill_known_code : (Instr.unknownCommand 9#8 []).wellFormed = false := by decide
theorem test_ill_long_body : (Instr.status (List.replicate 201 0#8)).wellFormed = false := by decide +kernel
theorem test_well_formed_at_the_limits :
    ((Instr.dayRolloverAccount 65535).wellFormed && (Instr.askReceived ask0).wellFormed && (Instr.hailReceived hail0).wellFormed
      && (Instr.carryReceived carry0 true).wellFormed && (Instr.tookReceived took0 true).wellFormed
      && (Instr.stagedCommitVerified 65536).wellFormed && (Instr.unknownCommand 10#8 []).wellFormed
      && (Instr.status (List.replicate 200 0#8)).wellFormed && (Instr.frameComplete (List.replicate 144 0#8)).wellFormed) = true := by
  decide +kernel
theorem test_no_word_spells_a_command : decodeTableWord 0 0 = none ∧ (State.reset.withFetchWord 0 0).pending = [] := ⟨rfl, rfl⟩

/-! ### Figures the spec works out -/

/-- R9: the CRC-16 of "123456789". -/
theorem test_crc_check_value : crc16 [0x31#8, 0x32#8, 0x33#8, 0x34#8, 0x35#8, 0x36#8, 0x37#8, 0x38#8, 0x39#8] = 0x29B1#16 := by decide +kernel
/-- R9: the CRC-16 of no byte. -/
theorem test_crc_empty : crc16 [] = 0xFFFF#16 := by decide
/-- R14 by hand: the window's day, its one missing residue, and both ends of the epoch. -/
theorem test_reconstruct :
    reconstruct 600 12586 = 12600 ∧ reconstruct 86 12586 = 12086 ∧ reconstruct 900 200 = 900 ∧ reconstruct 700 65500 = 64700 := by decide
/-- R27's example: base 41, marks for 43 and 44, marking 42. -/
theorem test_window_example : markSerial 41 6#32 42 = (44, 0#32) ∧ classify 44 0#32 76 = .eligible ∧ classify 44 0#32 77 = .ahead := by
  decide
/-- R184's example: 1,205 Wh is four groups. -/
theorem test_number_groups : numberGroups 1205 = [⟨.amber, 1⟩, ⟨.amber, 2⟩, ⟨.amber, 10⟩, ⟨.amber, 5⟩] := by decide
/-- R17: BYPASS and STORE-FULL are bits 10 and 0 of the condition field. -/
theorem test_condition_field : conditionField [.bypass, .storeFull] = 1025 ∧ conditionsOf 1025 = [.bypass, .storeFull] := by decide
/-- R113's example: with a lifetime of 14 days a receipt of day 12,586 stays through 12,600 and goes at 12,601. -/
theorem test_ageing_example : (12586 + 14 < 12600) = False ∧ (12586 + 14 < 12601) = True := by decide

/-! ### Single steps -/

/-- R50, R54, R56 by hand: 06 47 D0 is I = 100 and V = 2,000, with check byte E2h; the product is 200,000. -/
theorem test_sample_reply :
    (after (.sampleReply 0x06#8 0x47#8 0xD0#8 0xE2#8) { base with meter := { base.meter with request := true } }).meter.chargeRem
      = 200000 := by decide
/-- R50, R61: a wrong check byte makes a missed sample. -/
theorem test_bad_check_byte :
    (after (.sampleReply 0x06#8 0x47#8 0xD0#8 0xE3#8) { base with meter := { base.meter with request := true } }).meter.misses = 1 := by
  decide
/-- R26: a charge report takes 1 Wh. -/
theorem test_charge_report : (after .chargeReport base).account.live.energy = 499 := by decide
/-- R83: a midnight from day 12,586. -/
theorem test_midnight :
    (after .wholeSecond { base with clock := { base.clock with timeState := .set, day := 12586, second := 86399 } }).clock.day = 12587 := by
  decide
/-- R75: the third OVER in a row trips the switch. -/
theorem test_trip :
    (after (.capVerdict .over) { base with switch := { base.switch with known := .lifeline, overRun := 2 } }).switch
      = { state := .tripHold, timer := some 60, overRun := 0, known := .lifeline } := by decide
/-- R76: the second event at 0 closes the switch under LIFELINE. -/
theorem test_hold_end :
    (after .tripHoldEnd { base with switch := { base.switch with state := .tripHold, timer := some 0, known := .lifeline } }).switch.state
      = .closed := by decide
/-- R122: exchange number 255 is followed by 0. -/
theorem test_exchange_number_wraps :
    (after (.hailTimerExpiry false) { base with exchange := { base.exchange with number := 255 } }).exchange.number = 0 := by decide
/-- R42: STORE-FULL raised stands in the set. -/
theorem test_condition_raised : (after (.conditionReport (.raised .storeFull)) base).account.conditions = [.storeFull] := by decide
/-- R152: a frame whose CRC fails is counted as a discard. -/
theorem test_bad_frame_counted :
    (after (.frameComplete (List.replicate 32 0#8)) { base with radio := { base.radio with rx := .receiving, reception := some [] } }).radio.discards
      = 1 := by decide +kernel
/-- R191: IDENTIFY's eight bytes at kit 731502 (000B296Eh), ORDINARY, commissioned, UNSET. -/
theorem test_identify :
    (after (.identify []) base).service.responses
      = [⟨1, .ok, [0x00#8, 0x0B#8, 0x29#8, 0x6E#8, 1#8, 1#8, 0#8, 1#8], true⟩] := by decide
/-- R190: a frame taken during a command is answered BUSY. -/
theorem test_busy :
    (after (.identify []) { base with service := { base.service with inProgress := some 2 } }).service.responses
      = [⟨1, .busy, [], false⟩] := by decide

/-- The station with the last byte of an IDENTIFY frame taken, whose CRC-16 is that of 01h 00h, a command being in progress or
none. -/
def identifyTaken (inProgress : Option Nat) : Controller :=
  after (.huntByte ((crc16 [1#8, 0#8]).extractLsb' 0 8)) { base with service := { base.service with
    line := .frame, frame := [1#8, 0#8, (crc16 [1#8, 0#8]).extractLsb' 8 8], inProgress := inProgress } }

/-- R188 to R190: the last byte of an IDENTIFY frame puts the command in progress, and on its way. -/
theorem test_collected_command :
    (identifyTaken none).inTransit = [.identify []] ∧ (identifyTaken none).service.inProgress = some 1 := by decide +kernel

/-- R190: a frame whose last byte comes during a command is answered BUSY there and then. -/
theorem test_collected_busy :
    (identifyTaken (some 2)).inTransit = [] ∧ (identifyTaken (some 2)).service.responses = [⟨1, .busy, [], false⟩] := by
  decide +kernel

/-- R189: a length byte of 201 discards the frame. -/
theorem test_long_frame :
    (after (.huntByte 201#8) { base with service := { base.service with line := .frame, frame := [1#8] } }).service.line = .hunt := by
  decide

/-- R49: a second event while SAMPLING sends 53h. -/
theorem test_request_byte : senseOut (after .secondEventMeter base) = some 0x53#8 := by decide

/-- R146: a HAIL of a station with W = 1,000 ms has a preamble of 1,020 ms and the start mark 2Dh D4h. -/
theorem test_preamble :
    (transmitted { base with radio := { base.radio with rx := .transmitting, onAir := some (.hail hail0) } }).map
      (fun t => (t.preambleMs, t.bytes.take 2)) = some (1020, [0x2D#8, 0xD4#8]) := by decide +kernel

/-! ### Witnesses: a state and operands that meet a statement's hypotheses together, clause by clause -/

/-- A Controller whose journal has a commit in flight. -/
def commit0 : Commit :=
  { kind := .periodic, attempt := .first, target := 0, image := imageOf rec0 16 1 base, overtaken := false }

def writing : Controller :=
  { base with journal := { base.journal with
      writeState := .writing, slot := some commit0, pages := .torn :: List.replicate 15 .erased } }

def verifying : Controller :=
  { writing with journal := { writing.journal with
      writeState := .verifying, pages := pageOf commit0.image :: List.replicate 15 .erased } }

/-- The first image of the recovered record. -/
def image0 : Image := { commit0.image with base := 41, lifelineDay := 5 }

def scanning (k : Scan) : Controller :=
  { base with journal := { base.journal with
      writeState := .scanning, scan := some k, pages := pageOf image0 :: List.replicate 15 .erased } }

def dark : Controller := { base with power := { base.power with mainOn := false } }

def safeSupply : Controller := { base with power := { base.power with writeSafe := true } }

theorem witness_StepRunsTheFrontCommand :
    ({ ctl := base, pending := [.chargeReport, .lifetimeReport] } : State).pending = .chargeReport :: [.lifetimeReport] := rfl

theorem witness_StepRunsTheFrontCommand_emptyQueue :
    (st base).pending = [] ∧ (st base).ctl.inTransit = []
      ∧ (st { base with inTransit := [.chargeReport] }).ctl.inTransit = .chargeReport :: [] := ⟨rfl, rfl, rfl⟩

theorem witness_EveryCommandCompletes : (st dark).ctl.power.mainOn = false ∧ outsideMain .chargeReport = false := ⟨rfl, rfl⟩

theorem witness_ColdStartTakesTheStartValues :
    goodBlock (st base).ctl.journal.block = some par ∧ goodBlock State.reset.ctl.journal.block = none := by decide +kernel

theorem witness_MainStartKeepsTheAlwaysOnDomain :
    ((st base).ctl.power.alwaysOn = true ∧ goodBlock (st base).ctl.journal.block = some par)
      ∧ (State.reset.ctl.power.alwaysOn = true ∧ goodBlock State.reset.ctl.journal.block = none)
      ∧ (st { dark with power := { dark.power with alwaysOn := false } }).ctl.power.alwaysOn = false := by decide +kernel

theorem witness_LossesOfPower : (st dark).ctl.power.mainOn = false ∧ (st base).ctl.power.mainOn = true := ⟨rfl, rfl⟩

theorem witness_ParametersChangeOnlyWithCommissioning :
    changesCommissioning .chargeReport = false ∧ ∃ t, exec .chargeReport (st base) = .next t := ⟨rfl, _, rfl⟩

/-- A use-by day of 12,600 and a residue of 999, over the message's last two bytes. -/
theorem witness_Crc16AndTags :
    (∀ day : Nat, (UseBy.full 12600) = .full day → 600 = day % 1000) ∧ (∀ n : Nat, (UseBy.full 12600) = .residue n → 600 = n)
      ∧ (∀ day : Nat, (UseBy.residue 999) = .full day → 999 = day % 1000)
      ∧ (∀ n : Nat, (UseBy.residue 999) = .residue n → 999 = n) := by
  refine ⟨?_, ?_, ?_, ?_⟩ <;> intro n h <;> cases h <;> rfl

theorem witness_UseByDayReconstructed : (0 : Nat) < 1000 ∧ (999 : Nat) < 1000 ∧ (0 : Nat) ≤ 65535 ∧ (65535 : Nat) ≤ 65535 := by decide

theorem witness_FrameBytesReadBack_hail :
    (frameHeader (.hail hail0)).2.sender ≠ 731502
      ∧ { hail0 with freeVouchers := 0, offers := List.replicate 10 ⟨⟨255, 4294967295, 65535⟩, 255⟩ }.good = true := by decide

theorem witness_FrameBytesReadBack_ask :
    (frameHeader (.ask ask0)).2.sender ≠ 731502 ∧ { ask0 with keys := List.replicate 6 ⟨1, 50, 3⟩ }.good = true := by decide

theorem witness_FrameBytesReadBack_carry :
    (frameHeader (.carry carry0)).2.sender ≠ 731502
      ∧ { carry0 with burst := 255, vouchers := List.replicate 4 ⟨1, 1, 1, 1, 1, 1, 1⟩ }.good = true := by decide

theorem witness_FrameBytesReadBack_took :
    (frameHeader (.took took0)).2.sender ≠ 731502 ∧ { took0 with keys := List.replicate 4 ⟨2, 50, 3⟩ }.good = true := by decide

/-- The greatest voucher item and receipt item, and an item that spells a record. -/
theorem witness_ChecksAndItemsReadBack :
    (⟨4294967295, 65535, 255, 16777215, 65535, 4294967295, 255⟩ : VoucherItem).inBytes = true
      ∧ (⟨4294967295, 65535, 65535, 255, 65535, 255, 16777215, 65535, 4294967295, 65535, 65535, 255, 255, 65535, 255⟩
          : ReceiptItem).inBytes = true
      ∧ (voucherOfItem ⟨99999999, 9999, 1, 5, 65535, 7, 15⟩).isSome = true := by decide

theorem witness_PeriodicRequestsAndWriteSafe_begun :
    (st safeSupply).ctl.power.mainOn = true ∧ cleanMemory (st safeSupply).ctl
      ∧ (st safeSupply).ctl.account.live.commissioned = true ∧ (st safeSupply).ctl.decommissioning = false
      ∧ (st safeSupply).ctl.account.live.held = false ∧ (st safeSupply).ctl.journal.slot = none
      ∧ (st safeSupply).ctl.journal.writeState = .idle ∧ (st safeSupply).ctl.journal.stagedWaiting = false
      ∧ (st safeSupply).ctl.journal.newestSeq < 4294967294 ∧ (st safeSupply).ctl.power.writeSafe = true := by decide

theorem witness_PeriodicRequestsAndWriteSafe_dropped :
    State.reset.ctl.power.mainOn = true ∧ State.reset.ctl.account.live.commissioned = false := ⟨rfl, rfl⟩

theorem witness_PeriodicRequestsAndWriteSafe_waiting :
    writing.power.mainOn = true ∧ writing.account.live.commissioned = true ∧ writing.decommissioning = false
      ∧ writing.account.live.held = false ∧ writing.journal.writeState ≠ .scanning ∧ writing.journal.slot.isSome = true := by decide

theorem witness_PeriodicRequestsAndWriteSafe_inhibited :
    base.account.live.commissioned = true ∧ base.decommissioning = false ∧ base.account.live.held = false
      ∧ base.journal.writeState ≠ .scanning ∧ base.journal.slot = none ∧ base.journal.writeState = .idle
      ∧ base.journal.stagedWaiting = false ∧ base.journal.newestSeq < 4294967294 ∧ base.power.writeSafe = false := by decide

def worn : Controller := { base with journal := { base.journal with newestSeq := 4294967294 } }

theorem witness_PeriodicRequestsAndWriteSafe_failed :
    worn.account.live.commissioned = true ∧ worn.decommissioning = false ∧ worn.account.live.held = false
      ∧ worn.journal.writeState ≠ .scanning ∧ worn.journal.slot = none ∧ worn.journal.writeState = .idle
      ∧ worn.journal.stagedWaiting = false ∧ 4294967294 ≤ worn.journal.newestSeq := by decide

/-- The Journal's own day rollover, in transit: the same hypotheses on the state it finds. -/
theorem witness_PeriodicRequestsAndWriteSafe_rollover :
    Instr.dayRolloverJournal 65535 = .dayRolloverJournal 65535 ∧ (scanning .cold).journal.writeState = .scanning
      ∧ { safeSupply with inTransit := [.dayRolloverJournal 65535] }.power.mainOn = true
      ∧ cleanMemory { safeSupply with inTransit := [.dayRolloverJournal 65535] } := by decide

theorem witness_PeriodicRequestsAndWriteSafe_rise_alone :
    dark.power.mainOn = false ∧ base.journal.erasureWaits = false ∧ base.journal.awaitingSafe = false := ⟨rfl, rfl, rfl⟩

theorem witness_PeriodicRequestsAndWriteSafe_rise_erasure :
    { base with journal := { base.journal with erasureWaits := true } }.power.mainOn = true
      ∧ { base with journal := { base.journal with erasureWaits := true } }.journal.erasureWaits = true := ⟨rfl, rfl⟩

def awaiting : Controller := { base with journal := { base.journal with awaitingSafe := true, periodicPending := true } }

theorem witness_PeriodicRequestsAndWriteSafe_rise_page :
    awaiting.power.mainOn = true ∧ cleanMemory awaiting ∧ awaiting.journal.erasureWaits = false
      ∧ awaiting.journal.awaitingSafe = true ∧ awaiting.journal.periodicPending = true ∧ awaiting.journal.stagedWaiting = false
      ∧ awaiting.journal.slot = none ∧ awaiting.journal.writeState = .idle ∧ awaiting.journal.newestSeq < 4294967294 := by decide

/-- WRITE-SAFE rises for an attempt that waits for it while a write is in flight; and a verified report is awaited, or none is. -/
theorem witness_PeriodicRequestsAndWriteSafe_rise_busy :
    { awaiting with journal := { awaiting.journal with slot := some commit0 } }.journal.slot.isSome = true
      ∧ { awaiting with journal := { awaiting.journal with writeState := .writing } }.journal.writeState ≠ .idle
      ∧ awaiting.journal.awaitingSafe = true ∧ awaiting.journal.erasureWaits = false
      ∧ reportAwaited awaiting = false
      ∧ reportAwaited { awaiting with account := { awaiting.account with
          flight := some { voucher := ⟨731502, 42, 1, 100, .full 12600, 0, 0⟩, unchecked := true, answerTo := none, verified := true } } }
        = true := by decide

def blockWriting (w : WriteState) (a : Attempt) : Controller :=
  { base with journal := { base.journal with writeState := w, block := blockOf par, commissioning := some (par, .block a) } }

theorem witness_ProgrammingComplete :
    (writing.power.mainOn = true ∧ writing.journal.writeState = .writing ∧ writing.journal.slot = some commit0
        ∧ ∀ p a, writing.journal.commissioning ≠ some (p, .block a))
      ∧ (blockWriting .writing .first).journal.writeState = .writing
      ∧ (blockWriting .writing .first).journal.commissioning = some (par, .block .first) := by
  refine ⟨⟨rfl, rfl, rfl, ?_⟩, rfl, rfl⟩
  intro p a h; cases h

theorem witness_PageReadBack_match :
    verifying.power.mainOn = true ∧ verifying.journal.writeState = .verifying ∧ verifying.journal.slot = some commit0
      ∧ (∀ p a, verifying.journal.commissioning ≠ some (p, .block a)) ∧ verifying.journal.periodicPending = false
      ∧ verifying.journal.stagedWaiting = false ∧ verifying.journal.pages.getD commit0.target .erased = pageOf commit0.image
      ∧ verifying.decommissioning = false ∧ { verifying with decommissioning := true }.decommissioning = true := by
  refine ⟨rfl, rfl, rfl, ?_, rfl, rfl, rfl, rfl, rfl⟩
  intro p a h; cases h

def retrying : Controller :=
  { verifying with journal := { verifying.journal with slot := some { commit0 with attempt := .retry } } }

/-- With `readTrue` false the page's contents do not matter, on the first attempt or on the retry. -/
theorem witness_PageReadBack_mismatch :
    verifying.journal.slot = some commit0 ∧ commit0.attempt = .first ∧ retrying.power.mainOn = true
      ∧ retrying.journal.writeState = .verifying ∧ retrying.journal.slot = some { commit0 with attempt := .retry }
      ∧ (∀ p a, retrying.journal.commissioning ≠ some (p, .block a)) ∧ retrying.journal.periodicPending = false
      ∧ retrying.journal.stagedWaiting = false ∧ retrying.decommissioning = false ∧ retrying.journal.reloadOwed = false := by
  refine ⟨rfl, rfl, rfl, rfl, rfl, ?_, rfl, rfl, rfl, rfl⟩
  intro p a h; cases h

/-- A request that waits for the write's end, and the retry of a write under DECOMMISSION. -/
theorem witness_PageReadBack_waiting :
    { verifying.journal with periodicPending := true }.writeState = .verifying
      ∧ { verifying.journal with stagedWaiting := true }.slot = some commit0 ∧ verifying.check.bad = []
      ∧ { retrying with decommissioning := true }.decommissioning = true ∧ retrying.check.bad = []
      ∧ retrying.journal.slot = some { commit0 with attempt := .retry } ∧ { retrying.journal with reloadOwed := true }.reloadOwed = true :=
  ⟨rfl, rfl, rfl, rfl, rfl, rfl, rfl⟩

theorem witness_CommissioningBlockReadBack :
    (blockWriting .verifying .retry).power.mainOn = true ∧ (blockWriting .verifying .retry).journal.writeState = .verifying
      ∧ (blockWriting .verifying .retry).journal.commissioning = some (par, .block .retry)
      ∧ (blockWriting .verifying .first).journal.commissioning = some (par, .block .first)
      ∧ (blockWriting .verifying .first).journal.block = blockOf par := ⟨rfl, rfl, rfl, rfl, rfl⟩

theorem witness_RecoveryScanFormsTheRecord_cold :
    (scanning .cold).power.mainOn = true ∧ cleanMemory (scanning .cold) ∧ (scanning .cold).params = some par
      ∧ (scanning .cold).journal.scan = some .cold ∧ newestValid par 0 (scanning .cold).journal.pages = some (0, image0) := by
  decide +kernel

theorem witness_RecoveryScanFormsTheRecord_main :
    (scanning (.main 34560000)).power.mainOn = true ∧ cleanMemory (scanning (.main 34560000))
      ∧ (scanning (.main 34560000)).params = some par ∧ (scanning (.main 34560000)).journal.scan = some (.main 34560000)
      ∧ newestValid par 0 (scanning (.main 34560000)).journal.pages = some (0, image0) := by decide +kernel

theorem witness_RecoveryScanFormsTheRecord_none :
    newestValid par 0 { scanning (.main 0) with journal := { base.journal with scan := some (.main 0) } }.journal.pages = none := by
  decide

/-- A page whose CRC fails stands beside the valid one; alone, it leaves none. -/
theorem witness_NewestValidPageIsNewest :
    newestValid par 0 [.holds image0 0#16, pageOf image0, .erased] = some (1, image0)
      ∧ newestValid par 0 [.holds image0 0#16, .torn] = none ∧ Page.torn ∈ [Page.holds image0 0#16, .torn] := by decide +kernel

/-- Pages and blocks at the bounds of their fields, and one beyond (R160, R192). -/
theorem witness_NewestValidPageIsNewest_ranges :
    pageValid par (pageOf { image0 with lifeline := 20, reserve := 65536, chargeRem := 89999999 }) = true
      ∧ pageValid par (pageOf { image0 with lifeline := 21 }) = false ∧ pageValid par (pageOf { image0 with reserve := 65552 }) = false
      ∧ pageValid par (pageOf { image0 with lifetimeRem := 90000000 }) = false ∧ pageValid par (pageOf { image0 with kit := 1 }) = false
      ∧ pageValid par (pageOf { image0 with commissioned := false }) = false ∧ pageValid par (.holds image0 0#16) = false
      ∧ goodBlock (blockOf { par with hailPeriod := 900, burst := 4 }) = some { par with hailPeriod := 900, burst := 4 }
      ∧ goodBlock (blockOf { par with hailPeriod := 65 }) = none ∧ goodBlock (blockOf { par with burst := 5 }) = none
      ∧ goodBlock (.holds par 0#16) = none ∧ goodBlock .erased = none := by decide +kernel

theorem witness_ReloadEndsHeld_page :
    (scanning .reload).power.mainOn = true ∧ cleanMemory (scanning .reload) ∧ (scanning .reload).params = some par
      ∧ (scanning .reload).journal.scan = some .reload
      ∧ newestValid par 0 (scanning .reload).journal.pages = some (0, image0) := by decide +kernel

theorem witness_ReloadEndsHeld_none :
    { base with journal := { base.journal with scan := some .reload } }.journal.scan = some .reload
      ∧ newestValid par 0 { base with journal := { base.journal with scan := some .reload } }.journal.pages = none := by decide

theorem witness_MarkedSerialIsSettledForGood : classify 41 6#32 42 = .eligible ∧ classify 41 6#32 73 = .eligible := by decide

/-- A Controller under another record. -/
def underRecord (r : Record) : Controller := { base with account := { base.account with live := r } }

def draining (n : Nat) : Controller := underRecord { rec0 with timeCredit := n }

theorem witness_SecondEventCountsTimeCreditDown :
    base.power.mainOn = true ∧ cleanMemory base ∧ deriveState (lowThreshold base) base.account.live ≠ .timed
      ∧ (draining 3602).power.mainOn = true ∧ cleanMemory (draining 3602) ∧ (draining 3602).decommissioning = false
      ∧ deriveState (lowThreshold (draining 3602)) (draining 3602).account.live = .timed
      ∧ ((draining 3602).account.live.timeCredit - 1) % 3600 ≠ 0
      ∧ (draining 1).power.mainOn = true ∧ cleanMemory (draining 1) ∧ (draining 1).decommissioning = false
      ∧ deriveState (lowThreshold (draining 1)) (draining 1).account.live = .timed
      ∧ ((draining 1).account.live.timeCredit - 1) % 3600 = 0 := by decide

/-- The table of R23 line by line, at the low threshold of 100 Wh and one above it, and with conditions of later lines standing
too; a derivation that is no change, and one that is. -/
theorem witness_SecondEventCountsTimeCreditDown_states :
    deriveState 100 { rec0 with commissioned := false, held := true } = .uncommissioned
      ∧ deriveState 100 { rec0 with held := true, owned := true } = .held
      ∧ deriveState 100 { rec0 with owned := true, timeCredit := 1 } = .owned ∧ deriveState 100 { rec0 with timeCredit := 1 } = .timed
      ∧ deriveState 100 { rec0 with energy := 101 } = .credited ∧ deriveState 100 { rec0 with energy := 100 } = .low
      ∧ deriveState 100 { rec0 with energy := 1 } = .low ∧ deriveState 100 { rec0 with energy := 0, lifeline := 1 } = .lifeline
      ∧ deriveState 100 { rec0 with energy := 0, lifeline := 0 } = .locked ∧ deriveState 0 { rec0 with energy := 1 } = .credited
      ∧ deriveState (lowThreshold base) base.account.live = base.account.state
      ∧ AccountState.timed = deriveState (lowThreshold (draining 1)) (draining 1).account.live
      ∧ AccountState.timed ≠ (draining 1).account.state := by decide

/-- A Controller under a live record and a staged one. -/
def underRecords (l r : Record) : Controller := { base with account := { base.account with live := l, staged := some r } }

/-- The balance's bounds: 1 Wh left, and none; a staged record that alone is lowered; nothing to take; the fifth charge. -/
theorem witness_MeterReportsAtTheAccount :
    accountOpen base ∧ oneWhTaken base.account.live ≠ base.account.live ∧ 0 < base.account.live.energy
      ∧ base.account.live.held = false ∧ accountQuiet base
      ∧ accountOpen (underRecord { rec0 with energy := 0, lifeline := 1 })
      ∧ oneWhTaken { rec0 with energy := 0, lifeline := 1 } ≠ { rec0 with energy := 0, lifeline := 1 }
      ∧ (underRecord { rec0 with energy := 0, lifeline := 1 }).account.live.energy = 0
      ∧ accountOpen (underRecords { rec0 with energy := 0, lifeline := 0 } rec0)
      ∧ (underRecords { rec0 with energy := 0, lifeline := 0 } rec0).account.staged.map oneWhTaken
          ≠ (underRecords { rec0 with energy := 0, lifeline := 0 } rec0).account.staged
      ∧ accountOpen (underRecord { rec0 with energy := 0, lifeline := 0 })
      ∧ oneWhTaken { rec0 with energy := 0, lifeline := 0 } = { rec0 with energy := 0, lifeline := 0 }
      ∧ (underRecord { rec0 with energy := 0, lifeline := 0 }).account.staged = none
      ∧ { base.account with metered := 4 }.metered = 4 ∧ base.clock.timeState = .unset := by
  unfold accountOpen accountQuiet; decide

theorem witness_ConditionReportRaisesIt_urgent :
    tableCode .journalFault = 10 ∧ isUrgent .journalFault = true ∧ tableCode .senseLost = 9 ∧ isUrgent .senseLost = false := by
  decide

theorem witness_ConditionReportRaisesIt :
    base.power.mainOn = true ∧ isUrgent .senseLost = false ∧ isUrgent .journalFault = true ∧ base.clock.timeState = .unset
      ∧ { base.account with conditions := [.journalFault] }.conditions.contains .journalFault = true
      ∧ base.check.bad = [] ∧ base.account.live.lastStatus = base.clock.day
      ∧ base.account.live.commissioned = true ∧ base.decommissioning = false ∧ TimeState.provisional ≠ .set := by decide

/-- A Controller with a pending-own list, a STATUS owed or none. -/
def debtor (l : List PendingEntry) (owed : Bool) : Controller :=
  { base with account := { base.account with pendingOwn := l, statusOwed := owed } }

/-- A Controller with the time SET on day 12,586. -/
def timed : Controller := { base with clock := { base.clock with timeState := .set, day := 12586, second := 100 } }

theorem witness_UrgentConditionMakesAStatus :
    accountOpen timed ∧ timed.account.statusOwed = false ∧ isUrgent .journalFault = true
      ∧ timed.account.conditions.contains .journalFault = false ∧ timed.clock.timeState ≠ .unset
      ∧ timed.account.live.lastStatus ≠ timed.clock.day ∧ receiptRoom timed timed.account.live 1 0 := by
  unfold accountOpen receiptRoom; decide

/-- A Controller with the time SET under a record. -/
def timedUnder (r : Record) : Controller := { timed with account := { timed.account with live := r } }

/-- The last serial below the reserve: the receipt brings the counter to it. -/
theorem witness_UrgentConditionMakesAStatus_lastSerial :
    accountOpen (timedUnder { rec0 with counter := some 15 })
      ∧ (timedUnder { rec0 with counter := some 15 }).account.live.lastStatus ≠ timed.clock.day
      ∧ receiptRoom (timedUnder { rec0 with counter := some 15 }) { rec0 with counter := some 15 } 15 0 := by
  unfold accountOpen receiptRoom; decide

/-- No receipt can be made: the counter at the reserve, UNKNOWN, or HELD; and one owed already. -/
theorem witness_UrgentConditionMakesAStatus_owed :
    accountOpen (timedUnder { rec0 with counter := some 16 }) ∧ isUrgent .held = true
      ∧ (timedUnder { rec0 with counter := some 16 }).account.conditions.contains .held = false
      ∧ (∀ n : Nat, (some 16 : Option Nat) = some n → rec0.reserve ≤ n) ∧ (∀ n : Nat, (none : Option Nat) = some n → rec0.reserve ≤ n)
      ∧ accountOpen (timedUnder { rec0 with held := true }) ∧ accountOpen (debtor [] true) ∧ (debtor [] true).account.statusOwed = true := by
  refine ⟨by unfold accountOpen; decide, by decide, by decide, ?_, ?_, by unfold accountOpen; decide, by unfold accountOpen; decide, rfl⟩
  · intro n h; cases h; decide
  · intro n h; cases h

/-- R40, R44: a STATUS that takes the last serial below the reserve asks for a commit, and one that cannot be made is owed. -/
theorem test_status_at_the_reserve :
    (after (.conditionReport (.raised .journalFault)) (timedUnder { rec0 with counter := some 15 })).journal.periodicPending = true
      ∧ (after (.conditionReport (.raised .journalFault)) (timedUnder { rec0 with counter := some 14 })).journal.periodicPending = false
      ∧ (after (.conditionReport (.raised .journalFault)) (timedUnder { rec0 with counter := some 16 })).account.statusOwed = true := by
  decide

/-- A receipt table's entry: of kit 60 and a hop, or the station's own with an outcome. -/
def foreignEntry (hop : Nat) : ReceiptEntry := ⟨{ fillReceipt .status 0 false base with origin := 60, serial := 3, hop := hop }, 0, false⟩

def ownEntry (o : ReceiptOutcome) : ReceiptEntry := ⟨fillReceipt o 42 false base, 0, true⟩

/-- A table with one own receipt, in its first slot: its own receipts in order. -/
theorem one_own (e : ReceiptEntry) (n : Nat) (h : e.own = true) : ownInOrder (some e :: List.replicate n none) [(0, e)] := by
  refine ⟨List.pairwise_singleton _ _, fun i f => ⟨?_, ?_⟩⟩
  · intro hm; cases List.mem_singleton.mp hm; exact ⟨rfl, h⟩
  · rintro ⟨hf, -⟩; obtain ⟨rfl, rfl⟩ := only_first _ _ _ _ hf; exact List.mem_singleton.mpr rfl

/-- In a full table a new own receipt takes the place of a foreign receipt, of an own STATUS, or of another own receipt. -/
theorem witness_UrgentConditionMakesAStatus_full :
    accountOpen timed ∧ timed.account.live.held = false ∧ timed.account.live.counter = some 1
      ∧ 1 < timed.account.live.reserve
      ∧ ownPlace (List.replicate 48 (some (foreignEntry 5))) 0 true
      ∧ ownPlace (List.replicate 48 (some (ownEntry .status))) 0 true
      ∧ ownPlace (List.replicate 48 (some (ownEntry .badTag))) 0 true := by
  refine ⟨by unfold accountOpen; decide, rfl, rfl, by decide, .inr ⟨rfl, by decide, _, rfl, .inl ⟨rfl, ?_⟩⟩,
    .inr ⟨rfl, by decide, _, rfl, .inr ⟨?_, .inl ⟨rfl, ?_⟩⟩⟩, .inr ⟨rfl, by decide, _, rfl, .inr ⟨?_, .inr ⟨?_, ?_⟩⟩⟩⟩
  · intro j f h _; cases all_copies _ _ _ _ h; exact .inr ⟨rfl, .inr ⟨rfl, Nat.zero_le j⟩⟩
  · intro f h; cases (List.mem_replicate.mp h).2; rfl
  · intro j f h _; cases all_copies _ _ _ _ h; exact .inr ⟨rfl, Nat.zero_le j⟩
  · intro f h; cases (List.mem_replicate.mp h).2; rfl
  · intro f h; cases (List.mem_replicate.mp h).2; decide
  · intro j f h; cases all_copies _ _ _ _ h; exact .inr ⟨rfl, Nat.zero_le j⟩

/-- With an empty slot, and at an AGENT station, whose table then holds one own receipt. -/
theorem witness_UrgentConditionMakesAStatus_agent :
    ownPlace (List.replicate 48 none) 0 false ∧ isAgent { timed with params := some { par with role := .agent } } = true
      ∧ ((List.replicate 48 none).set 0 (some (ownEntry .status))).length = 48
      ∧ ownInOrder (some (ownEntry .status) :: List.replicate 47 none) [(0, ownEntry .status)] := by
  refine ⟨.inl ⟨rfl, rfl, ?_⟩, by decide, by decide, one_own _ _ rfl⟩
  intro j h; cases h

theorem witness_DayRolloverRefillsTheLifeline :
    accountOpen base ∧ base.params = some par ∧ accountQuiet base ∧ base.account.live.held = false
      ∧ 6 < base.account.live.lastStatus + par.reportInterval := by
  unfold accountOpen accountQuiet; decide

def spent : Controller := underRecord { rec0 with counter := some 16 }

theorem witness_DayRolloverRefillsTheLifeline_owed :
    accountOpen spent ∧ spent.params = some par ∧ accountQuiet spent ∧ spent.account.live.held = false
      ∧ spent.account.live.lastStatus + par.reportInterval ≤ 7
      ∧ spent.account.live.counter = some spent.account.live.reserve := by
  unfold accountOpen accountQuiet; decide

def heldBase : Controller := underRecord { rec0 with held := true }

/-- The same with a word of the account that does not read. -/
def heldBad : Controller :=
  { heldBase with check := { heldBase.check with bad := [{ unit := .account, flips := [38, 0], address := 5 }] } }

theorem witness_DayRolloverRefillsTheLifeline_held :
    heldBase.power.mainOn = true ∧ heldBase.account.live.commissioned = true ∧ heldBase.decommissioning = false
      ∧ heldBase.params = some par ∧ accountQuiet heldBase ∧ heldBase.account.live.held = true
      ∧ heldBase.check.armed = none ∧ heldBase.check.bad = []
      ∧ heldBad.power.mainOn = true ∧ heldBad.account.live.commissioned = true ∧ heldBad.decommissioning = false
      ∧ heldBad.params = some par ∧ accountQuiet heldBad ∧ heldBad.account.live.held = true ∧ heldBad.check.armed = none
      ∧ heldBad.check.bad = [{ unit := .account, flips := [38, 0], address := 5 }] := by
  unfold accountQuiet; decide

def voucher0 : Voucher :=
  { target := 731502, serial := 42, kind := 1, amount := 100, useBy := .full 12600, tag := 0, hop := 0 }

def flight0 : Flight := { voucher := voucher0, unchecked := true, answerTo := some 1, verified := false }

def flying : Controller :=
  { base with account := { base.account with flight := some flight0, staged := some { rec0 with energy := 600, base := 44, marks := 0 } } }

/-- The same after the read-back of its page. -/
def flown : Controller := { flying with account := { flying.account with flight := some { flight0 with verified := true } } }

theorem witness_VerifiedApplicationGoesLive :
    accountOpen flown ∧ flown.account.overtaken.contains (.stagedCommitVerified 16) = false ∧ flown.account.live.held = false
      ∧ flown.account.flight = some { flight0 with verified := true }
      ∧ flown.account.staged = some { rec0 with energy := 600, base := 44, marks := 0 } ∧ flown.account.pendingOwn = []
      ∧ flown.account.statusOwed = false ∧ flown.account.pass = none ∧ rec0.commissioned = true
      ∧ receiptRoom flown { ({ rec0 with energy := 600, base := 44, marks := 0 } : Record) with reserve := 16 } 1 0 := by
  unfold accountOpen receiptRoom; decide

/-- A Controller with reports on an overtaken application still in transit. -/
def overtakenReports (l : List Instr) : Controller := { flown with account := { flown.account with overtaken := l } }

/-- A report on an application that HELD has overtaken, and one that finds no verified commit. -/
theorem witness_VerifiedApplicationGoesLive_stale :
    flown.power.mainOn = true
      ∧ (overtakenReports [.stagedCommitVerified 16]).account.overtaken.contains (.stagedCommitVerified 16) = true
      ∧ accountOpen flying ∧ flying.account.overtaken.contains (.stagedCommitVerified 16) = false
      ∧ ∀ f : Flight, flying.account.flight = some f → f.verified = false := by
  refine ⟨rfl, by decide, by unfold accountOpen; decide, by decide, ?_⟩
  intro f h; cases h; rfl

/-- The same once an image has been taken before the report: the staged record is live already. -/
def imaged : Controller := after .powerFailWarning { flown with power := { flown.power with writeSafe := true } }

theorem witness_VerifiedApplicationGoesLive_imaged :
    accountOpen imaged ∧ imaged.account.overtaken.contains (.stagedCommitVerified 16) = false ∧ imaged.account.live.held = false
      ∧ imaged.account.flight = some { flight0 with verified := true } ∧ imaged.account.staged = none
      ∧ imaged.account.live = { rec0 with energy := 600, base := 44, marks := 0 } ∧ imaged.account.pendingOwn = []
      ∧ imaged.account.statusOwed = false ∧ imaged.account.pass = none ∧ imaged.account.live.commissioned = true
      ∧ receiptRoom imaged { imaged.account.live with reserve := 16 } 1 0 := by
  unfold accountOpen receiptRoom; decide

/-- R163, R165, R31: a request that meets the empty slot before the report of a verified commit begins its write at once, of the
live record, which holds the effect and the mark; the receipt comes with the report. -/
theorem test_write_between_verification_and_report :
    imaged.journal.slot.map (fun m => (m.kind, m.image.energy, m.image.base)) = some (.periodic, 600, 44)
      ∧ imaged.store.receipts.all Option.isNone = true
      ∧ ((after (.stagedCommitVerified 16) imaged).store.receipts.getD 0 none).map (fun e => e.receipt.outcome)
        = some .applied := by decide

theorem witness_VerifiedPeriodicCommit :
    accountOpen base ∧ base.account.live.held = false ∧ base.account.statusOwed = false
      ∧ (∀ e : PendingEntry, e ∈ base.account.pendingOwn → e.owed = none)
      ∧ (underRecord { rec0 with held := true }).account.live.held = true := by
  refine ⟨by unfold accountOpen; decide, rfl, rfl, ?_, rfl⟩
  intro e h; cases h

def owing (serial : Nat) (o : Option Owed) : PendingEntry := ⟨{ voucher0 with serial := serial }, false, false, false, o, none⟩

/-- One owed receipt, the reserve at its lowest that gives room, and above it. -/
theorem witness_VerifiedPeriodicCommit_owed :
    accountOpen (debtor [owing 42 (some ⟨.badTag, false⟩), owing 50 none] false)
      ∧ (debtor [owing 42 (some ⟨.badTag, false⟩), owing 50 none] false).account.live.held = false
      ∧ isFinal ReceiptOutcome.badTag = true
      ∧ (∀ x : PendingEntry, x ∈ [owing 50 none] → x.owed = none ∧ x.voucher.serial ≠ (owing 42 none).voucher.serial)
      ∧ receiptRoom (debtor [owing 42 (some ⟨.badTag, false⟩), owing 50 none] false) { rec0 with reserve := 2 } 1 0
      ∧ receiptRoom (debtor [owing 42 (some ⟨.badTag, false⟩), owing 50 none] false) { rec0 with reserve := 3 } 1 0 := by
  refine ⟨by unfold accountOpen; decide, rfl, rfl, ?_, by unfold receiptRoom; decide, by unfold receiptRoom; decide⟩
  intro x h
  obtain rfl := List.mem_singleton.mp h
  exact ⟨rfl, by decide⟩

/-- A reload with entries that all owe, a STATUS owed, WRITE-SAFE low or high, and no sequence left or some. -/
def reloading (safe : Bool) (seq : Nat) : Controller :=
  { debtor [owing 42 (some ⟨.badTag, false⟩), owing 50 (some ⟨.expired, false⟩)] true with
    power := { base.power with writeSafe := safe }
    journal := { base.journal with
      writeState := .scanning, scan := some .reload
      pages := pageOf { image0 with sequence := seq } :: List.replicate 15 .erased } }

theorem witness_ReloadEndsHeld_owing :
    (reloading true 1).power.mainOn = true ∧ cleanMemory (reloading true 1) ∧ (reloading true 1).params = some par
      ∧ (reloading true 1).journal.scan = some .reload ∧ (reloading true 1).account.statusOwed = true
      ∧ (newestValid par 0 (reloading true 1).journal.pages).isSome = true
      ∧ (newestValid par 0 (reloading false 4294967294).journal.pages).isSome = true
      ∧ (reloading true 1).account.flight = none ∧ (reloading true 1).account.pass = none
      ∧ (reloading true 1).decommissioning = false ∧ (reloading true 1).journal.slot = none
      ∧ ((reloading true 1).account.pendingOwn.all (fun e => decide (e.owed ≠ none))) = true := by decide +kernel

/-- R24, R45: at a reload's end the reached reserve keeps a STATUS owed, the entries that owe stay, and the commit begins. -/
theorem test_reload_keeps_debts :
    (after .reloadScanComplete (reloading true 1)).account.statusOwed = true
      ∧ (after .reloadScanComplete (reloading true 1)).account.pendingOwn.length = 2
      ∧ (after .reloadScanComplete (reloading true 1)).journal.writeState = .writing := by decide +kernel

/-- Two owed receipts and an owed STATUS, with a reserve of 5 for a counter of 1. -/
theorem witness_VerifiedPeriodicCommit_owedStatus :
    accountOpen (debtor [owing 42 (some ⟨.badTag, false⟩), owing 43 (some ⟨.applied, true⟩)] true)
      ∧ (debtor [owing 42 (some ⟨.badTag, false⟩), owing 43 (some ⟨.applied, true⟩)] true).account.live.held = false
      ∧ isFinal ReceiptOutcome.applied = true
      ∧ (debtor [] true).store.receipts = none :: none :: none :: List.replicate 45 none ∧ isAgent (debtor [] true) = false
      ∧ (debtor [] true).account.live.counter = some 1 ∧ 1 + 3 < 5 := by
  unfold accountOpen; decide

/-- A Controller that can make no receipt, the counter at its reserve, with a pending-own list. -/
def spentDebtor (l : List PendingEntry) : Controller := { spent with account := { spent.account with pendingOwn := l } }

/-- An entry whose voucher is applicable: its tag is the one that the kit key gives. -/
def goodEntry (serial : Nat) : PendingEntry :=
  let v : Voucher := { voucher0 with serial := serial, useBy := .full 12600 }
  ⟨{ v with tag := voucherTag par.key v }, false, false, false, none, none⟩

/-- A pass over entries that owe and entries with a bad tag; an applicable entry behind two of those; and one whose receipt
can be made. -/
theorem witness_DayRolloverRefillsTheLifeline_pass :
    accountOpen (spentDebtor [owing 10 (some ⟨.expired, false⟩), owing 41 none, goodEntry 42, owing 50 none])
      ∧ spent.account.live.held = false ∧ spent.account.flight = none ∧ spent.account.pass = none
      ∧ [owing 10 (some ⟨.expired, false⟩), owing 41 none, goodEntry 42, owing 50 none].length ≤ 4
      ∧ [owing 10 (some ⟨.expired, false⟩), owing 41 none, goodEntry 42, owing 50 none].Pairwise
          (fun x y => x.voucher.serial < y.voucher.serial)
      ∧ [owing 10 (some ⟨.expired, false⟩), owing 41 none, goodEntry 42, owing 50 none].all
          (fun e => decide (e.unexamined = false ∧ e.answerTo = none)) = true
      ∧ spent.account.live.counter = some 16 ∧ spent.account.live.reserve = 16
      ∧ (foundOf spent (owing 41 none)).isSome = true ∧ (foundOf spent (owing 50 none)).isSome = true
      ∧ foundOf spent (goodEntry 42) = none ∧ (goodEntry 42).owed = none ∧ spent.journal.writeState ≠ .scanning
      ∧ spent.journal.slot = none ∧ writing.journal.slot.isSome = true
      ∧ (foundOf base (owing 42 none)).map (fun r => (r.1.bind (fun x => x.owed), r.2)) = some (some ⟨.badTag, false⟩, true) := by
  unfold accountOpen; decide +kernel

/-- R37: the pass passes over the entry that owes, refuses the one below the applicable one, and stages that. -/
theorem test_pass_in_serial_order :
    (runDue (trigger (spentDebtor
        [owing 10 (some ⟨.expired, false⟩), owing 41 none, goodEntry 42, owing 50 none]))).account.pendingOwn.map
          (fun e => (e.voucher.serial, e.owed.map (·.outcome)))
      = [(10, some .expired), (41, some .badTag), (42, none), (50, none)]
    ∧ (runDue (trigger (spentDebtor [owing 10 (some ⟨.expired, false⟩), owing 41 none, goodEntry 42, owing 50 none]))).account.staged.map
          (fun r => (r.energy, r.base)) = some (600, 44) := by decide +kernel

theorem witness_AbandonedApplicationStaysPending :
    accountOpen flying ∧ flying.account.live.held = false ∧ flying.account.flight = some flight0
      ∧ flying.account.overtaken = []
      ∧ flying.account.pendingOwn = [] ∧ flying.account.pass = none ∧ flying.account.passDue = false
      ∧ flying.account.live.lastStatus = flying.clock.day := by
  unfold accountOpen; decide

/-- A failure with JOURNAL-FAULT first raised, the day known and no STATUS of today. -/
theorem witness_AbandonedApplicationStaysPending_firstRaised :
    accountOpen { flying with clock := timed.clock } ∧ flight0.verified = false
      ∧ flying.account.conditions.contains .journalFault = false ∧ timed.clock.timeState ≠ .unset
      ∧ flying.account.live.lastStatus ≠ timed.clock.day := by
  unfold accountOpen; decide

/-- R33, R44: such a failure makes the STATUS at once. -/
theorem test_failure_makes_a_status :
    ((after (.commitFailedReport .staged) { flying with clock := timed.clock }).store.receipts.getD 0 none).map
        (fun e => e.receipt.outcome) = some .status
      ∧ (after (.commitFailedReport .staged) { flying with clock := timed.clock }).account.pendingOwn.map (·.voucher.serial)
        = [42] := by decide

/-- A copy of the serial joined the list during the flight. -/
theorem witness_AbandonedApplicationStaysPending_copy :
    entryWith flight0.voucher.serial [owing 42 none] = some (owing 42 none)
      ∧ accountOpen { flying with account := { flying.account with pendingOwn := [owing 42 none] } } := by
  unfold accountOpen; decide

/-- A full list whose last serial is below the voucher's 42, and one whose last is above it. -/
theorem witness_AbandonedApplicationStaysPending_full :
    4 ≤ [owing 10 none, owing 20 none, owing 30 none, owing 41 none].length
      ∧ [owing 10 none, owing 20 none, owing 30 none, owing 41 none].getLast? = some (owing 41 none)
      ∧ (owing 41 none).voucher.serial ≤ flight0.voucher.serial
      ∧ entryWith flight0.voucher.serial [owing 10 none, owing 20 none, owing 30 none, owing 41 none] = none
      ∧ [owing 10 none, owing 20 none, owing 30 none, owing 43 none].getLast? = some (owing 43 none)
      ∧ flight0.voucher.serial < (owing 43 none).voucher.serial
      ∧ entryWith flight0.voucher.serial [owing 10 none, owing 20 none, owing 30 none, owing 43 none] = none
      ∧ [owing 10 none, owing 20 none, owing 30 none, owing 43 none].all (fun e => decide (e.unexamined = false)) = true
      ∧ flying.clock.timeState = .unset := by decide

/-- A failed periodic commit without an application in flight, under HELD, on an UNCOMMISSIONED station, and with the
condition set already. -/
theorem witness_AbandonedApplicationStaysPending_periodic :
    base.power.mainOn = true ∧ base.account.overtaken.contains (.commitFailedReport .periodic) = false
      ∧ base.account.flight = none ∧ base.account.live.held = false ∧ base.account.live.commissioned = true
      ∧ base.decommissioning = false ∧ base.clock.timeState = .unset ∧ State.reset.ctl.account.live.commissioned = false
      ∧ (underRecord { rec0 with held := true }).account.live.held = true
      ∧ { base.account with conditions := [.journalFault] }.conditions.contains .journalFault = true := by decide

/-- R34: a report on an overtaken application puts no record live. -/
theorem test_overtaken_report :
    (after (.stagedCommitVerified 16) (overtakenReports [.stagedCommitVerified 16])).account.staged = flown.account.staged
      ∧ (after (.stagedCommitVerified 16) (overtakenReports [.stagedCommitVerified 16])).account.overtaken = [] := by decide

theorem witness_AbandonedApplicationStaysPending_overtaken :
    (overtakenReports [.commitFailedReport .staged, .commitInhibitedReport]).power.mainOn = true
      ∧ (overtakenReports [.commitFailedReport .staged, .commitInhibitedReport]).account.overtaken.contains
          .commitInhibitedReport = true := by decide

/-- A Controller with a sample request in flight. -/
def asked : Controller := { base with meter := { base.meter with request := true } }

theorem witness_RequestsAndMissedSamples_requests :
    base.power.mainOn = true ∧ base.meter.mode = .sampling ∧ base.meter.request = false
      ∧ State.reset.ctl.meter.mode = .idle := ⟨rfl, rfl, rfl, rfl⟩

/-- Misses before the eleventh and at it, the last product 300. -/
def askedAfter (misses : Nat) (sw : SwitchState) (known : AccountState) : Controller :=
  { asked with
    meter := { asked.meter with misses := misses, lastGood := 300, known := known }
    switch := { asked.switch with state := sw, known := known } }

def askedLifeline : Controller :=
  { asked with meter := { asked.meter with known := .lifeline }, switch := { asked.switch with known := .lifeline } }

/-- The propositions that a class of load is defined by, for a Controller. -/
abbrev isCharged (c : Controller) : Prop :=
  c.switch.state = .closed ∧ (c.meter.known = .credited ∨ c.meter.known = .low ∨ c.meter.known = .lifeline)

abbrev isUnderLifeline (c : Controller) : Prop := c.switch.state = .closed ∧ c.meter.known = .lifeline

abbrev isForbidden (c : Controller) : Prop :=
  c.switch.state ≠ .closed ∨ c.meter.known = .locked ∨ c.meter.known = .held ∨ c.meter.known = .uncommissioned

/-- A reply with a wrong check byte; the ninth and tenth rise of the count and the eleventh; a load charged for, under LIFELINE,
free and forbidden by the switch and by the account; and a second event that finds its request in flight. -/
theorem witness_RequestsAndMissedSamples_missed :
    asked.power.mainOn = true ∧ asked.meter.request = true ∧ asked.params = some par ∧ asked.meter.mode = .sampling
      ∧ (0xE3#8).toNat ≠ 255 - ((0x06#8).toNat + (0x47#8).toNat + (0xD0#8).toNat) % 256
      ∧ 300 = (if (askedAfter 9 .closed .credited).meter.misses < 10 then 300 else 0)
      ∧ ¬ (askedAfter 10 .closed .lifeline).meter.misses < 10 ∧ par.fallback * 25000 = 500000
      ∧ (isCharged (askedAfter 9 .closed .credited) ∧ ¬ isUnderLifeline (askedAfter 9 .closed .credited))
      ∧ (isCharged (askedAfter 10 .closed .lifeline) ∧ isUnderLifeline (askedAfter 10 .closed .lifeline))
      ∧ ¬ isCharged (askedAfter 10 .closed .owned) ∧ ¬ isCharged (askedAfter 10 .tripHold .lifeline)
      ∧ ¬ isCharged (askedAfter 10 .opened .locked) := by decide

/-- The counts are 100 and 2,000; at the dead-band and the cutoff 5 and 1,400; saturated 4,095 and 4,095. A load charged for,
one under LIFELINE, one free and one forbidden. -/
theorem witness_GoodSamples :
    asked.power.mainOn = true ∧ asked.meter.request = true ∧ asked.params = some par
      ∧ (0xE2#8).toNat = 255 - ((0x06#8).toNat + (0x47#8).toNat + (0xD0#8).toNat) % 256
      ∧ 100 = (0x06#8).toNat * 16 + (0x47#8).toNat / 16 ∧ 2000 = (0x47#8).toNat % 16 * 256 + (0xD0#8).toNat
      ∧ 200000 = (if 100 ≤ 4 then 0 else 100) * 2000
      ∧ 5 = (0x00#8).toNat * 16 + (0x55#8).toNat / 16 ∧ 1400 = (0x55#8).toNat % 16 * 256 + (0x78#8).toNat
      ∧ (0x32#8).toNat = 255 - ((0x00#8).toNat + (0x55#8).toNat + (0x78#8).toNat) % 256
      ∧ 4095 = (0xFF#8).toNat * 16 + (0xFF#8).toNat / 16 ∧ 4095 = (0xFF#8).toNat % 16 * 256 + (0xFF#8).toNat
      ∧ (0x02#8).toNat = 255 - ((0xFF#8).toNat + (0xFF#8).toNat + (0xFF#8).toNat) % 256
      ∧ (isCharged asked ∧ ¬ isUnderLifeline asked ∧ ¬ isForbidden asked)
      ∧ (askedLifeline.power.mainOn = true ∧ askedLifeline.meter.request = true ∧ askedLifeline.params = some par
        ∧ isCharged askedLifeline ∧ isUnderLifeline askedLifeline ∧ ¬ isForbidden askedLifeline)
      ∧ (¬ isCharged { asked with meter := { asked.meter with known := .owned } }
        ∧ ¬ isForbidden { asked with meter := { asked.meter with known := .owned } })
      ∧ isForbidden { asked with switch := Switch.started } := by decide

/-- The counts at the cutoff's edges: 1,399 is below it, 1,450 recovers and 1,449 does not. -/
theorem witness_SupplyBandTurnsAtSixty :
    base.meter.band = .normal ∧ 1399 < relayCutoff base ∧ { base.meter with lowRun := 59 }.lowRun = 59
      ∧ { base.meter with band := .low, recoveryRun := 59 }.recoveryRun = 59 ∧ relayCutoff base + 50 ≤ 1450
      ∧ 1449 < relayCutoff base + 50 ∧ { base.meter with lowRun := 58 }.lowRun < 59 ∧ relayCutoff base ≤ 1400
      ∧ { base.meter with band := .low, recoveryRun := 58 }.recoveryRun < 59
      ∧ { base.meter with band := .low, recoveryRun := 58 }.band = .low := by decide

theorem witness_AccountStateDrivesTheSwitch :
    base.power.mainOn = true ∧ AccountState.credited = base.switch.known ∧ AccountState.locked ≠ base.switch.known
      ∧ base.account.live.commissioned = true ∧ base.decommissioning = false
      ∧ State.reset.ctl.account.live.commissioned = false ∧ AccountState.locked ≠ State.reset.ctl.switch.known := by decide

def drawing (run : Nat) : Controller := { base with switch := { base.switch with known := .lifeline, overRun := run } }

def holding (n : Nat) : Controller :=
  { base with switch := { base.switch with state := .tripHold, timer := some n, known := .lifeline } }

theorem witness_TripAndHold :
    (drawing 1).power.mainOn = true ∧ (drawing 1).switch.state = .closed ∧ (drawing 1).switch.known = .lifeline
      ∧ (drawing 1).decommissioning = false ∧ (drawing 1).switch.overRun < 2 ∧ (drawing 2).switch.overRun = 2
      ∧ base.switch.known ≠ .lifeline ∧ (holding 1).switch.state = .tripHold ∧ (holding 1).switch.timer = some (0 + 1)
      ∧ (holding 0).switch.timer = some 0 ∧ base.switch.state ≠ .tripHold := by decide

/-- A request in flight under a trip hold with `n` on its timer, the second event of the request still in transit to the switch. -/
def judgedUnderHold (n : Nat) : Controller :=
  { holding n with meter := { base.meter with request := true }, inTransit := [.secondEventSwitch] }

/-- R76: a sample requested at the second event that ends the hold is charged for, as the switch is CLOSED; one event short of
the end it is not. -/
theorem test_sample_sees_the_hold_ended :
    (after (.sampleReply 0x06#8 0x47#8 0xD0#8 0xE2#8) (judgedUnderHold 0)).meter.chargeRem = 200000
      ∧ (after (.sampleReply 0x06#8 0x47#8 0xD0#8 0xE2#8) (judgedUnderHold 1)).meter.chargeRem = 0 := by decide +kernel

theorem witness_GoodSamples_hold :
    (judgedUnderHold 0).power.mainOn = true ∧ (judgedUnderHold 0).meter.request = true ∧ (judgedUnderHold 0).params = some par
      ∧ (atJudging (judgedUnderHold 0)).switch.state = .closed ∧ (atJudging (judgedUnderHold 1)).switch.state = .tripHold := by
  decide

theorem witness_RequestsAndMissedSamples_hold :
    (judgedUnderHold 0).meter.mode = .sampling
      ∧ (atJudging (arrive .secondEventMeter (judgedUnderHold 0))).switch.state = .closed
      ∧ (atJudging (judgedUnderHold 0)).inTransit = [] := by decide

def clockAt (d n : Nat) (k : TimeState) : Controller :=
  { base with clock := { base.clock with timeState := k, day := d, second := n } }

theorem witness_WholeSecondPasses :
    base.power.alwaysOn = true ∧ base.power.mainOn = true ∧ (clockAt 12586 86398 .set).clock.second < 86399
      ∧ (clockAt 65534 86399 .set).clock.second = 86399 ∧ (clockAt 65534 86399 .set).clock.day < 65535
      ∧ (clockAt 65535 86399 .set).clock.day = 65535 := by decide

/-- At the 2 s margin: 2 s ahead is left, 3 s ahead is stepped. -/
theorem witness_HailsSetTheTime_agent :
    base.power.mainOn = true ∧ base.radio.active = true ∧ base.clock.timeState ≠ .set ∧ (clockAt 12586 100 .set).clock.timeState = .set
      ∧ ¬ (12586 * 86400 + 100 + 2 < 12586 * 86400 + 102) ∧ 12586 * 86400 + 100 + 2 < 12586 * 86400 + 103
      ∧ (65535 : Nat) ≤ 65535 ∧ (86399 : Nat) ≤ 86399 ∧ (65535 : Nat) < 65536 := by decide

def peered : Controller := { base with clock := { base.clock with candidate := some ⟨60, 12586, 1000⟩ } }

/-- At the 600 s bound: 1,600 confirms 1,000, 1,601 does not. -/
theorem witness_HailsSetTheTime_peers :
    peered.power.mainOn = true ∧ peered.radio.active = true ∧ peered.clock.timeState = .unset
      ∧ peered.clock.candidate = some ⟨60, 12586, 1000⟩ ∧ (60 : Nat) ≠ 50
      ∧ 12586 * 86400 + 1600 ≤ 12586 * 86400 + 1000 + 600 ∧ 12586 * 86400 + 1000 ≤ 12586 * 86400 + 1600 + 600
      ∧ 12586 * 86400 + 1000 + 600 < 12586 * 86400 + 1601 ∧ base.clock.candidate = none ∧ timed.clock.timeState ≠ .unset := by decide

theorem witness_DayRolloverSweepsAndAges :
    base.power.mainOn = true ∧ cleanMemory base ∧ base.params = some par ∧ base.store.vouchers.length = 48
      ∧ base.store.receipts.length = 48 := by decide

/-- A key in the retired-key list, a list of 31 keys, and one of 32. -/
theorem witness_DayRolloverSweepsAndAges_retired :
    (⟨.voucher, 60, 3⟩ : ItemKey) ∈ [(⟨.voucher, 60, 3⟩ : ItemKey)]
      ∧ (⟨.receipt, 60, 3⟩ : ItemKey) ∉ List.replicate 32 (⟨.voucher, 60, 3⟩ : ItemKey)
      ∧ (List.replicate 31 (⟨.voucher, 60, 3⟩ : ItemKey)).length < 32 ∧ 32 ≤ (List.replicate 32 (⟨.voucher, 60, 3⟩ : ItemKey)).length := by
  decide

/-- A foreign voucher key, an own one and a receipt key are wanted, the last also at an AGENT. -/
theorem witness_WantedKeysAreNewAndHaveRoom :
    admissionTest base (reckoningOf base) ⟨.voucher, 50, 3⟩ 7 = .want (some 0)
      ∧ admissionTest base (reckoningOf base) ⟨.voucher, 731502, 42⟩ 15 = .want none
      ∧ admissionTest base (reckoningOf base) ⟨.receipt, 50, 3⟩ 7 = .want (some 0)
      ∧ admissionTest { base with params := some { par with role := .agent } } (reckoningOf base) ⟨.receipt, 50, 3⟩ 15 = .want none := by decide

/-- A Controller whose voucher table is full of copies of one entry's hop. -/
def fullOf (hop : Nat) : Controller :=
  { base with store := { base.store with
      vouchers := List.replicate 48 (some ⟨⟨60, 3, 1, 5, .full 12600, 1, hop⟩, 0, false⟩) } }

/-- An empty slot; in a full table a victim of hop 6 for a new hop of 5, and none for one of 6. -/
theorem witness_WantedKeysAreNewAndHaveRoom_slots :
    hasSlot 5 (voucherRoom base) 0 ∧ hasSlot 5 (voucherRoom (fullOf 6)) 0 ∧ hasNoSlot 6 (voucherRoom (fullOf 6))
      ∧ 5 ≤ hopLimit base ∧ hopLimit base < 8 + 1 ∧ base.exchange.suspended = false := by
  have hr : voucherRoom (fullOf 6) = List.replicate 48 (some (6, 0, true)) := by decide
  refine ⟨.inl ⟨rfl, by intro m h; cases h⟩, ?_, ?_, by decide, by decide, rfl⟩
  · rw [hr]
    refine .inr ⟨by decide, _, rfl, rfl, by decide, ?_⟩
    intro m y h _; cases all_copies _ _ _ _ h; exact .inr ⟨rfl, .inr ⟨rfl, Nat.zero_le m⟩⟩
  · rw [hr]
    refine ⟨by decide, ?_⟩
    intro x h _; cases (List.mem_replicate.mp h).2; exact Nat.le_refl 6

/-- Own serials below the base, at it and above the marks, a full pending-own list on both sides of a serial, an account that
does not read, and an AGENT's log with room and without. -/
theorem witness_WantedKeysAreNewAndHaveRoom_own :
    accountReads base = true ∧ base.account.live.settled 41 ∧ ¬ base.account.live.settled 42
      ∧ 4 ≤ [owing 43 none, owing 44 none, owing 45 none, owing 46 none].length
      ∧ [owing 43 none, owing 44 none, owing 45 none, owing 46 none].getLast? = some (owing 46 none)
      ∧ (42 : Nat) < (owing 46 none).voucher.serial ∧ (owing 46 none).voucher.serial < 47
      ∧ accountReads heldBad = false ∧ isAgent { base with params := some { par with role := .agent } } = true
      ∧ (⟨.receipt, 60, 3⟩ : ItemKey).kit ≠ ownKit base ∧ base.store.log.length < 256
      ∧ 256 ≤ { base.store with log := List.replicate 256 (fillReceipt .status 0 false base) }.log.length := by
  unfold Record.settled; decide +kernel

def slot0 (f : SlotFrame) (n : Nat) : TxSlot := { frame := f, senses := n, window := 8, deadline := none }

def sending (busy : Bool) (f : SlotFrame) (n : Nat) : Controller :=
  { base with power := { base.power with channelBusy := busy }, channel := { Channel.empty with ask := some (slot0 f n) } }

theorem witness_ChannelAccessChooses :
    State.reset.ctl.radio.active = false
      ∧ ((sending false (.final (.ask ask0)) 0).radio.active = true ∧ (sending false (.final (.ask ask0)) 0).radio.rx ≠ .transmitting
        ∧ (sending false (.final (.ask ask0)) 0).channel.backoff = none
        ∧ slotOf .ask (sending false (.final (.ask ask0)) 0).channel = some (slot0 (.final (.ask ask0)) 0)
        ∧ (sending false (.final (.ask ask0)) 0).power.channelBusy = false
        ∧ (sending false (.final (.ask ask0)) 0).radio.rx ≠ .receiving)
      ∧ ((sending true (.final (.ask ask0)) 3).power.channelBusy = true ∧ (sending true (.final (.ask ask0)) 3).radio.rx = .listen
        ∧ (slot0 (.final (.ask ask0)) 3).senses < 4 ∧ (slot0 (.final (.ask ask0)) 4).senses = 4
        ∧ (sending true (.final (.ask ask0)) 4).channel.hail = none) := by decide

/-- A Controller whose channel is busy at the fifth sense of the frame in a slot. -/
def fifth (k : FrameKind) (f : SlotFrame) (e : Exchange) : Controller :=
  { base with
    power := { base.power with channelBusy := true }, channel := setSlot k (some (slot0 f 4)) Channel.empty, exchange := e }

def carryWaiting : SlotFrame := .waiting ⟨50, 7, 0, true, []⟩

/-- The exchange of a burst being sent to 50, with another asker queued or none, and a HAIL deferred. -/
def sendingBurst (retry : Nat) (l : List AskEntry) : Exchange :=
  { base.exchange with
    hailer := .serving, deferred := true, askQueue := l
    service := some { asker := 50, keyCount := 3, plan := [[]], burst := 0, retry := retry, acked := 0 } }

/-- The fifth busy sense of each kind: a TOOK; an ASK; a HAIL with a HAIL deferred, and with relaying suspended; a CARRY of no
service, of one the hailer does not serve, of one at its third retry and of one at its last, with an asker behind it. -/
theorem witness_ChannelAccessChooses_fifth :
    (fifth .took (.final (.took took0)) base.exchange).check.bad = []
      ∧ slotOf .took (fifth .took (.final (.took took0)) base.exchange).channel = some (slot0 (.final (.took took0)) 4)
      ∧ slotOf .ask (fifth .ask (.final (.ask ask0)) base.exchange).channel = some (slot0 (.final (.ask ask0)) 4)
      ∧ slotOf .hail (fifth .hail (.final (.hail hail0)) { base.exchange with deferred := true }).channel
        = some (slot0 (.final (.hail hail0)) 4)
      ∧ (fifth .hail (.final (.hail hail0)) { base.exchange with deferred := true }).exchange.suspended = false
      ∧ (fifth .hail (.final (.hail hail0)) { base.exchange with deferred := true, suspended := true }).exchange.suspended = true
      ∧ slotOf .carry (fifth .carry carryWaiting base.exchange).channel = some (slot0 carryWaiting 4)
      ∧ (fifth .carry carryWaiting base.exchange).exchange.service = none
      ∧ { sendingBurst 2 [] with hailer := .idle }.hailer ≠ .serving
      ∧ (fifth .carry carryWaiting (sendingBurst 2 [])).exchange.hailer = .serving
      ∧ (fifth .carry carryWaiting (sendingBurst 2 [])).channel.backoff = none
      ∧ (fifth .carry carryWaiting (sendingBurst 2 [])).power.channelBusy = true
      ∧ (sendingBurst 2 []).service.map (fun sv => sv.retry) = some 2
      ∧ (sendingBurst 3 [⟨50, []⟩, ⟨51, []⟩]).service.map (fun sv => sv.retry) = some 3
      ∧ (sendingBurst 3 [⟨50, []⟩, ⟨51, []⟩]).askQueue.drop 1 = [⟨51, []⟩] := by decide

theorem witness_ChannelAccessChooses_above :
    ∀ j : FrameKind, rank j < rank .ask → slotOf j (sending false (.final (.ask ask0)) 0).channel = none := by
  intro j; cases j <;> decide

/-- A placement against a backoff of its own slot, of a lower one and of a higher one; a station in DOZE. -/
theorem witness_ChannelAccessChooses_backoff :
    rank .ask ≤ rank .ask ∧ rank .took ≤ rank .hail ∧ rank .carry < rank .ask ∧ FrameKind.hail ≠ .ask
      ∧ (Radio.started true 0).rx = .doze ∧ base.radio.rx ≠ .doze := by decide

/-- A draw with one value to draw, and the rearmed hail timer's of a period of 60 s. -/
theorem witness_HailTimerComposesAHail_drawn : (0 : Nat) ≤ 0 ∧ 750 * hailPeriod base ≤ 1250 * hailPeriod base := by decide

theorem witness_HailTimerComposesAHail :
    base.power.mainOn = true ∧ base.radio.active = true ∧ base.exchange.hailTimer = some 60000
      ∧ base.exchange.suspended = false ∧ base.exchange.hailer = .idle ∧ base.check.bad = []
      ∧ { base.exchange with suspended := true }.suspended = true ∧ { base.exchange with hailer := .serving }.hailer ≠ .idle := by decide

/-- A Controller with a voucher in its first slot, an own receipt in the first slot of its table, and the cursor at 95. -/
def offering : Controller :=
  { base with store := { base.store with
      vouchers := some ⟨⟨60, 3, 1, 5, .full 12600, 1, 2⟩, 0, false⟩ :: List.replicate 47 none
      receipts := some (ownEntry .applied) :: List.replicate 47 none, cursor := 95 } }

/-- The own receipt goes first, and the round then goes on from the last position to the first. -/
theorem witness_HailTimerComposesAHail_offer :
    offering.store.vouchers.length = 48 ∧ offering.store.receipts.length = 48 ∧ offering.store.cursor < 96
      ∧ ownInOrder offering.store.receipts [(0, ownEntry .applied)]
      ∧ composeOffer offering = ([(receiptKey (ownEntry .applied).receipt, 0), (⟨.voucher, 60, 3⟩, 2)], 1) :=
  ⟨by decide, by decide, by decide, one_own _ 47 rfl, by decide +kernel⟩

def entry0 (n : Nat) : AskEntry := { asker := n, keys := [⟨.voucher, 60, 3⟩] }

def window (l : List AskEntry) (ext : Bool) : Controller :=
  { base with exchange := { base.exchange with
      hailer := .askWindow, askWindow := some 1500, windowExtended := ext, askQueue := l } }

def askHere : AskFrame := { header := { header0 with addressee := 731502, exchange := 7 }, keys := [⟨1, 60, 3⟩] }

/-- The fourth place of the ask queue, taken. -/
theorem witness_AskWindowTakesAsks_queued :
    (window [entry0 1, entry0 2, entry0 3] false).power.mainOn = true
      ∧ (window [entry0 1, entry0 2, entry0 3] false).radio.active = true ∧ cleanMemory (window [entry0 1, entry0 2, entry0 3] false)
      ∧ (window [entry0 1, entry0 2, entry0 3] false).exchange.hailer = .askWindow
      ∧ askHere.header.addressee = ownKit (window [entry0 1, entry0 2, entry0 3] false)
      ∧ askHere.header.exchange = (window [entry0 1, entry0 2, entry0 3] false).exchange.number
      ∧ (∀ e ∈ (window [entry0 1, entry0 2, entry0 3] false).exchange.askQueue, e.asker ≠ askHere.header.sender)
      ∧ validKeys askHere.keys ≠ [] ∧ (window [entry0 1, entry0 2, entry0 3] false).exchange.askQueue.length < 4 := by decide

theorem witness_AskWindowTakesAsks_ignored :
    ask0.header.addressee ≠ ownKit (window [] false) ∧ 4 ≤ (window [entry0 1, entry0 2, entry0 3, entry0 4] false).exchange.askQueue.length := by
  decide

theorem witness_AskWindowTakesAsks_closes :
    (window [] false).power.mainOn = true ∧ (window [] false).radio.active = true ∧ (window [] false).check.bad = []
      ∧ (window [] false).exchange.hailer = .askWindow ∧ (window [] false).exchange.service = none
      ∧ (window [] false).exchange.windowExtended = false ∧ (window [] false).radio.rx = .listen
      ∧ (window [] true).exchange.windowExtended = true ∧ (window [] true).exchange.askQueue = []
      ∧ (window [] true).exchange.deferred = false ∧ (window [entry0 1] true).exchange.askQueue = entry0 1 :: [] := by decide

/-- The window closes with a HAIL deferred: it is composed, or relaying is suspended and it is dropped. -/
theorem witness_AskWindowTakesAsks_deferred :
    { (window [] true).exchange with deferred := true }.askQueue = []
      ∧ (hailerRests { window [] true with exchange := { (window [] true).exchange with deferred := true } }).exchange.hailer = .hailing
      ∧ (hailerRests { window [] true with
        exchange := { (window [] true).exchange with deferred := true, suspended := true } }).exchange.deferred = false := by decide

/-- The divisions of R125's examples: 3 and 5 keys with a burst size of 2, and 6 with one of 4; and no key. -/
theorem witness_AskWindowTakesAsks_bursts :
    let ks : List ItemKey := [⟨.voucher, 60, 1⟩, ⟨.voucher, 60, 2⟩, ⟨.voucher, 60, 3⟩, ⟨.voucher, 60, 4⟩, ⟨.voucher, 60, 5⟩, ⟨.voucher, 60, 6⟩]
    (burstsOf 2 3 (ks.take 3)).map List.length = [2, 1] ∧ (burstsOf 2 5 (ks.take 5)).map List.length = [2, 2, 1]
      ∧ (burstsOf 4 6 ks).map List.length = [4, 2] ∧ burstsOf 4 0 [] = [] := by decide

/-- A table with one entry gives its item under its key, and nothing under another. -/
theorem witness_AskWindowTakesAsks_items :
    some ⟨⟨60, 3, 1, 5, .full 12600, 1, 2⟩, 0, false⟩ ∈ offering.store.vouchers
      ∧ (∀ f : VoucherEntry, some f ∈ offering.store.vouchers → f = ⟨⟨60, 3, 1, 5, .full 12600, 1, 2⟩, 0, false⟩)
      ∧ carriedVoucher offering ⟨.voucher, 60, 3⟩ = some ⟨60, 3, 1, 5, 12600, 1, 2⟩
      ∧ some (ownEntry .applied) ∈ offering.store.receipts
      ∧ (∀ f : ReceiptEntry, some f ∈ offering.store.receipts → f = ownEntry .applied)
      ∧ carriedReceipt offering (receiptKey (ownEntry .applied).receipt) = some (itemOfReceipt (ownEntry .applied).receipt)
      ∧ givesItem offering ⟨.voucher, 60, 4⟩ = false := by
  refine ⟨by decide, ?_, by decide, by decide +kernel, ?_, by decide +kernel, by decide +kernel⟩
  all_goals
    intro f hf
    obtain ⟨i, hi⟩ := List.mem_iff_getElem?.mp hf
    exact (only_first _ _ _ _ hi).2

/-- The window's end with channel-busy asserted while the station is TRANSMITTING, and in a sample of DOZE and out of one. -/
theorem witness_AskWindowTakesAsks_readings :
    { (window [] false).radio with rx := .transmitting }.rx = .transmitting
      ∧ { (window [] false).radio with rx := .doze, sampling := true }.sampling = true
      ∧ { (window [] false).radio with rx := .doze, sampling := false }.sampling = false
      ∧ (after (.askWindowClose true) { window [] false with
        radio := { (window [] false).radio with rx := .transmitting } }).exchange.hailer = .idle := by decide

def service0 (plan : List (List ItemKey)) (burst retry : Nat) : Service :=
  { asker := 50, keyCount := 3, plan := plan, burst := burst, retry := retry, acked := 0 }

def waitingTook (sv : Service) : Controller :=
  { base with exchange := { base.exchange with
      hailer := .awaitTook, askQueue := [entry0 50], service := some sv, tookWait := some 400 } }

def waitingTooks (sv : Service) : Controller :=
  { waitingTook sv with exchange := { (waitingTook sv).exchange with askQueue := [entry0 50, entry0 51] } }

def tookHere (agent : Bool) : TookFrame :=
  { header := { header0 with addressee := 731502, exchange := 7, agent := agent }, burst := 0, keys := [⟨2, 50, 3⟩] }

/-- The next burst, the exchange's end and the next asker, at the plan's last burst but one and at its last. -/
theorem witness_TooksAndTheirWait_took :
    (waitingTook (service0 [[], []] 0 0)).power.mainOn = true ∧ (waitingTook (service0 [[], []] 0 0)).radio.active = true
      ∧ cleanMemory (waitingTook (service0 [[], []] 0 0)) ∧ (waitingTook (service0 [[], []] 0 0)).exchange.hailer = .awaitTook
      ∧ (waitingTook (service0 [[], []] 0 0)).exchange.service = some (service0 [[], []] 0 0)
      ∧ (tookHere true).header.addressee = ownKit (waitingTook (service0 [[], []] 0 0))
      ∧ (tookHere true).header.sender = (service0 [[], []] 0 0).asker
      ∧ (tookHere true).header.exchange = (waitingTook (service0 [[], []] 0 0)).exchange.number
      ∧ (tookHere true).burst = (service0 [[], []] 0 0).burst
      ∧ (service0 [[], []] 0 0).burst + 1 < (service0 [[], []] 0 0).plan.length
      ∧ (service0 [[]] 0 0).plan.length ≤ (service0 [[]] 0 0).burst + 1
      ∧ (waitingTook (service0 [[]] 0 0)).exchange.askQueue.drop 1 = []
      ∧ (waitingTook (service0 [[]] 0 0)).exchange.deferred = false
      ∧ (waitingTooks (service0 [[]] 0 0)).exchange.askQueue.drop 1 = entry0 51 :: [] := by decide

/-- The exchange ends with a HAIL deferred: it is composed, or relaying is suspended and it is dropped. -/
theorem witness_TooksAndTheirWait_deferred :
    (servedOn 1 { waitingTook (service0 [[]] 0 0) with
      exchange := { (waitingTook (service0 [[]] 0 0)).exchange with deferred := true } }).exchange.hailer = .hailing
      ∧ (askerAbandoned (service0 [[]] 0 3) { waitingTook (service0 [[]] 0 3) with exchange := {
        (waitingTook (service0 [[]] 0 3)).exchange with deferred := true, suspended := true } }).exchange.deferred = false := by
  decide

/-- A TOOK that matches nothing, of an AGENT too: by the hailer's state, the addressee, the exchange and the burst. -/
theorem witness_TooksAndTheirWait_unmatched :
    base.exchange.hailer ≠ .awaitTook ∧ took0.header.addressee ≠ ownKit (waitingTook (service0 [[]] 0 0))
      ∧ ({ (tookHere true).header with exchange := 8 } : FrameHeader).exchange ≠ (waitingTook (service0 [[]] 0 0)).exchange.number
      ∧ ∀ sv : Service, (waitingTook (service0 [[]] 1 0)).exchange.service = some sv →
          (tookHere true).header.sender ≠ sv.asker ∨ (tookHere true).burst ≠ sv.burst := by
  refine ⟨by decide, by decide, by decide, ?_⟩
  intro sv h; cases h; exact .inr (by decide)

theorem witness_TooksAndTheirWait_wait :
    (waitingTook (service0 [[]] 0 2)).exchange.tookWait.isSome = true ∧ (service0 [[]] 0 2).retry < 3
      ∧ 3 ≤ (service0 [[]] 0 3).retry ∧ (waitingTook (service0 [[]] 0 3)).exchange.askQueue.drop 1 = []
      ∧ (waitingTook (service0 [[]] 0 3)).exchange.deferred = false
      ∧ (waitingTooks (service0 [[]] 0 3)).exchange.tookWait.isSome = true
      ∧ (waitingTooks (service0 [[]] 0 3)).exchange.askQueue = entry0 50 :: entry0 51 :: [] := by decide

def onAir (f : AirFrame) : Controller :=
  { base with
    radio := { base.radio with rx := .transmitting, onAir := some f }
    exchange := { base.exchange with hailer := .serving, service := some (service0 [[]] 0 0) } }

theorem witness_TransmissionsEnd :
    (onAir (.hail hail0)).power.mainOn = true ∧ (onAir (.hail hail0)).radio.active = true
      ∧ (onAir (.hail hail0)).radio.rx = .transmitting ∧ (onAir (.hail hail0)).radio.onAir = some (.hail hail0)
      ∧ (onAir (.ask ask0)).radio.onAir = some (.ask ask0) ∧ (onAir (.took took0)).radio.onAir = some (.took took0)
      ∧ (onAir (.carry { carry0 with header := { header0 with addressee := 50 } })).exchange.service = some (service0 [[]] 0 0)
      ∧ (service0 [[]] 0 0).asker = ({ carry0 with header := { header0 with addressee := 50 } } : CarryFrame).header.addressee
      ∧ (onAir (.hail hail0)).exchange.hailer = .serving := by decide

def outstanding0 (b : Option Nat) : Outstanding :=
  { hailer := 50, exchange := 9, keys := [⟨.voucher, 60, 3⟩], composed := ask0, deadline := 1500, lastBurst := b }

def asking (b : Option Nat) : Controller :=
  { base with exchange := { base.exchange with
      asker := .awaitCarry, outstanding := some (outstanding0 b), carryTimer := some 20000, keptTook := some took0 } }

def hailOffering : HailFrame := { hail0 with offers := [⟨⟨1, 60, 3⟩, 0⟩] }

theorem witness_AsksAreMade_hail :
    (asking none).power.mainOn = true ∧ (asking none).radio.active = true ∧ (asking none).exchange.asker ≠ .idle
      ∧ base.exchange.asker = .idle ∧ base.check.bad = []
      ∧ (wanted base (reckoningOf base) (candidates base hail0)).take 6 = []
      ∧ (wanted base (reckoningOf base) (candidates base hailOffering)).take 6 ≠ [] := by decide

/-- A Controller whose voucher table has one empty slot left and one entry of hop 6 among entries of hop 0. -/
def nearlyFull : Controller :=
  { base with store := { base.store with
      vouchers := none :: some ⟨⟨61, 3, 1, 5, .full 12600, 1, 6⟩, 0, false⟩
        :: List.replicate 46 (some ⟨⟨62, 3, 1, 5, .full 12600, 1, 0⟩, 0, false⟩) } }

/-- The first key takes the empty slot, the second the victim's, the third finds none, and a key that stands twice is wanted
once. -/
theorem witness_AsksAreMade_reckoning :
    let k : Nat → ItemKey := fun n => ⟨.voucher, 50, n⟩
    admissionTest nearlyFull (reckoningOf nearlyFull) (k 1) 2 = .want (some 0)
      ∧ admissionTest nearlyFull (reckoningOf nearlyFull) ⟨.voucher, 61, 3⟩ 2 = .holds
      ∧ admissionTest nearlyFull (reckoningOf nearlyFull) (k 1) 8 = .refuse
      ∧ wanted nearlyFull (reckoningOf nearlyFull) [(k 1, 2), (k 1, 2), (k 2, 2), (k 3, 2)] = [k 1, k 2]
      ∧ k 1 ∈ { reckoningOf nearlyFull with answered := [k 1] }.answered ∧ k 1 ∉ (reckoningOf nearlyFull).answered := by
  decide +kernel

/-- Own vouchers, then receipts, then foreign vouchers; a key of kit 0 and one of hop 16 are passed over. -/
theorem test_candidates_in_groups :
    candidates base { hail0 with offers := [⟨⟨1, 60, 3⟩, 0⟩, ⟨⟨2, 60, 3⟩, 15⟩, ⟨⟨1, 731502, 42⟩, 1⟩, ⟨⟨1, 0, 3⟩, 0⟩, ⟨⟨2, 61, 3⟩, 16⟩] }
      = [(⟨.voucher, 731502, 42⟩, 1), (⟨.receipt, 60, 3⟩, 15), (⟨.voucher, 60, 3⟩, 0)] := by decide +kernel

theorem witness_AsksAreMade_timers :
    { (asking none).exchange with askDelay := some 1200 }.askDelay = some 1200
      ∧ (asking none).exchange.outstanding = some (outstanding0 none) ∧ (sending false (.final (.ask ask0)) 0).channel.ask.isSome = true
      ∧ (asking none).exchange.carryTimer.isSome = true := by decide

def item0 : VoucherItem := { target := 60, serial := 3, kind := 1, amount := 5, useBy := 12600, tag := 1, hop := 0 }

def voucher1 : Voucher := { target := 60, serial := 3, kind := 1, amount := 5, useBy := .full 12600, tag := 1, hop := 0 }

def carryHere (b : Nat) : CarryFrame :=
  { header := { header0 with addressee := 731502 }, burst := b, last := true, vouchers := [item0], receipts := [] }

theorem witness_CarriesAreRead_new :
    (asking none).power.mainOn = true ∧ (asking none).radio.active = true ∧ cleanMemory (asking none)
      ∧ (asking none).exchange.asker = .awaitCarry ∧ (asking none).exchange.outstanding = some (outstanding0 none)
      ∧ (outstanding0 none).hailer = (carryHere 0).header.sender ∧ (outstanding0 none).exchange = (carryHere 0).header.exchange
      ∧ (carryHere 0).header.addressee = ownKit (asking none) ∧ (outstanding0 none).lastBurst = none
      ∧ (carryHere 0).vouchers = [item0] ∧ (carryHere 0).receipts = [] ∧ voucherOfItem item0 = some voucher1
      ∧ voucher1.target ≠ ownKit (asking none) ∧ (outstanding0 none).keys.contains (voucherKey voucher1) = true
      ∧ admissionTest (asking none) (reckoningOf (asking none)) (voucherKey voucher1) voucher1.hop = .want (some 0) := by decide

theorem witness_CarriesAreRead_again :
    (outstanding0 (some 1)).lastBurst = some (carryHere 1).burst ∧ (asking (some 1)).exchange.keptTook = some took0
      ∧ (outstanding0 (some 1)).lastBurst = some 1 ∧ (carryHere 0).burst < 1 := by decide

def carryOwn : CarryFrame :=
  { header := { header0 with addressee := 60 }, burst := 0, last := true, vouchers := [{ item0 with target := 731502, serial := 42 }]
    receipts := [] }

theorem witness_CarriesAreRead_overheard :
    base.exchange.asker ≠ .awaitCarry ∧ carryOwn.header.addressee ≠ ownKit base ∧ carryOwn.vouchers.length = 1
      ∧ voucherOfItem { item0 with target := 731502, serial := 42 } = some { voucher1 with target := 731502, serial := 42 }
      ∧ ({ voucher1 with target := 731502, serial := 42 } : Voucher).target = ownKit base
      ∧ admitOwn base (voucherKey { voucher1 with target := 731502, serial := 42 }) = .want none
      ∧ carry0.vouchers = [] := by decide

/-- A CARRY of the outstanding exchange for another station, and, while a CARRY is awaited, one of another exchange. -/
theorem witness_CarriesAreRead_awaiting :
    (∃ o : Outstanding, (asking none).exchange.asker = .awaitCarry ∧ (asking none).exchange.outstanding = some o
        ∧ o.hailer = carryOwn.header.sender ∧ o.exchange = carryOwn.header.exchange)
      ∧ carryOwn.header.addressee ≠ ownKit (asking none)
      ∧ (¬ ∃ o : Outstanding, (asking none).exchange.asker = .awaitCarry ∧ (asking none).exchange.outstanding = some o
        ∧ o.hailer = (carryHere 0).header.sender ∧ o.exchange = { (carryHere 0).header with exchange := 77 }.exchange)
      ∧ (asking none).exchange.asker = .awaitCarry := by
  refine ⟨⟨_, rfl, rfl, rfl, rfl⟩, by decide, ?_, rfl⟩
  rintro ⟨o, -, ho, -, he⟩
  cases ho
  revert he; decide

/-- R134, R139: the CARRY timeout is started again by a CARRY of the exchange for another station, and by no other CARRY. -/
theorem test_overheard_carry_restarts_the_timeout :
    (after (.carryReceived { carry0 with header := { header0 with addressee := 60 } } false)
        { asking none with exchange := { (asking none).exchange with carryTimer := some 5 } }).exchange.carryTimer = some 20000
      ∧ (after (.carryReceived { carry0 with header := { header0 with exchange := 77 } } false)
        { asking none with exchange := { (asking none).exchange with carryTimer := some 5 } }).exchange.carryTimer = some 5 := by
  decide

/-- A Controller whose voucher table holds a voucher. -/
def holding1 (v : Voucher) : Controller :=
  { base with store := { base.store with
      vouchers := some { voucher := v, arrival := 0, isLocal := false } :: List.replicate 47 none } }

/-- A slot that holds the key, one that holds another and an empty one. -/
theorem witness_CarryItemsAreTaken_keys :
    ([some { voucher := voucher1, arrival := 0, isLocal := false }, none] : List (Option VoucherEntry))[1]? = some none
      ∧ (some ({ voucher := voucher1, arrival := 0, isLocal := false } : VoucherEntry)).map (fun e => voucherKey e.voucher)
        = some (voucherKey voucher1)
      ∧ some (voucherKey voucher1) ≠ some ⟨.voucher, 60, 9999⟩ ∧ isFinal .expired = true ∧ isFinal .full = false := by decide

/-- The items of a CARRY: asked or not, listed already, held, wanted, own, and not valid. -/
theorem witness_CarryItemsAreTaken_vouchers :
    cleanMemory base ∧ voucherOfItem { item0 with serial := 0 } = none ∧ voucherOfItem item0 = some voucher1
      ∧ ([] : List ItemKey).contains (voucherKey voucher1) = false ∧ voucher1.target ≠ ownKit base
      ∧ [voucherKey voucher1].contains (voucherKey voucher1) = true
      ∧ admissionTest base (reckoningOf base) (voucherKey voucher1) voucher1.hop = .want (some 0)
      ∧ admissionTest base (reckoningOf base) (voucherKey voucher1) 8 = .refuse
      ∧ admissionTest (holding1 voucher1) (reckoningOf (holding1 voucher1)) (voucherKey voucher1) voucher1.hop = .holds
      ∧ voucherOfItem { item0 with target := 731502, serial := 42 } = some { voucher1 with target := 731502, serial := 42 }
      ∧ ({ voucher1 with target := 731502, serial := 42 } : Voucher).target = ownKit base
      ∧ admitOwn base (voucherKey { voucher1 with target := 731502, serial := 42 }) = .want none := by decide

/-- A receipt item of kit 60 and the receipt it spells, at an ORDINARY station, at the hop limit, and at an AGENT. -/
def receiptItem0 : ReceiptItem :=
  { origin := 60, serial := 3, created := 0, outcomeByte := 1, voucherSerial := 42, stateCode := 4, energy := 5, hours := 0
    lifetime := 9, conditions := 0, bypass := 0, corrected := 0, uncorrected := 0, discards := 0, hop := 7 }

theorem witness_CarryItemsAreTaken_receipts :
    receiptOfItem { receiptItem0 with serial := 0 } = none
      ∧ (receiptOfItem receiptItem0).map (fun r => (receiptKey r, r.hop, isFinal r.outcome)) = some (⟨.receipt, 60, 3⟩, 7, true)
      ∧ ([] : List ItemKey).contains ⟨.receipt, 60, 3⟩ = false
      ∧ [(⟨.receipt, 60, 3⟩ : ItemKey)].contains ⟨.receipt, 60, 3⟩ = true ∧ isAgent base = false
      ∧ admissionTest base (reckoningOf base) ⟨.receipt, 60, 3⟩ 7 = .want (some 0)
      ∧ admissionTest base (reckoningOf base) ⟨.receipt, 60, 3⟩ 8 = .refuse
      ∧ isAgent { base with params := some { par with role := .agent } } = true
      ∧ admissionTest { base with params := some { par with role := .agent } } (reckoningOf base) ⟨.receipt, 60, 3⟩ 7
        = .want none := by decide

/-- A receipt item that spells a record, and records at the bounds of what an item spells. -/
theorem witness_ChecksAndItemsReadBack_records :
    receiptItem0.inBytes = true ∧ (receiptOfItem receiptItem0).isSome = true
      ∧ 1 ≤ { voucher1 with target := 99999999 }.target ∧ { voucher1 with target := 99999999 }.target ≤ 99999999
      ∧ { voucher1 with serial := 9999 }.serial ≤ 9999 ∧ { voucher1 with hop := 15 }.hop ≤ 15 ∧ voucher1.useBy = .full 12600
      ∧ { fillReceipt .status 0 false base with serial := 65535 }.serial ≤ 65535
      ∧ (fillReceipt .status 0 false base).voucherSerial = 0 ∧ (fillReceipt .badTag 9999 false base).voucherSerial ≤ 9999
      ∧ [Condition.bypass, .storeFull] = allConditions.filter (fun x => [Condition.bypass, .storeFull].contains x)
      ∧ 1 ≤ (fillReceipt .badTag 9999 false base).origin ∧ 1 ≤ (fillReceipt .badTag 9999 false base).serial := by decide

/-- An ENERGY voucher with the tag the kit key gives, for a serial, an amount and a use-by day. -/
def voucherFor (serial amount day : Nat) : Voucher :=
  { voucher0 with
    serial := serial, amount := amount, useBy := .full day
    tag := voucherTag par.key { voucher0 with serial := serial, amount := amount, useBy := .full day } }

/-- A Controller with an energy balance, room for a commit and the time SET on day 12,586. -/
def rich (energy : Nat) : Controller :=
  { timed with
    power := { timed.power with writeSafe := true }
    account := { timed.account with live := { rec0 with energy := energy } } }

def ready : Controller := rich 900000

/-- Both sides of the known day, for a residue. -/
theorem witness_DeliveredVouchers_useBy :
    base.clock.timeState = .unset ∧ TimeState.provisional ≠ .unset ∧ useByNow .provisional 12586 (.residue 600) = .full 12600 := by
  decide

/-- The window's both ends, the room's limit and a use-by day of today. -/
theorem witness_DeliveredVouchers_staged :
    accountOpen ready ∧ ready.account.live.held = false ∧ ready.account.flight = none
      ∧ voucherFor 42 99999 12586 = { voucherFor 42 99999 12586 with
          useBy := useByNow ready.clock.timeState ready.clock.day (voucherFor 42 99999 12586).useBy }
      ∧ entryWith 42 ready.account.pendingOwn = none
      ∧ tagMatches (ownKey ready) (voucherFor 42 99999 12586) = true
      ∧ tagMatches (ownKey ready) (voucherFor 73 99999 12586) = true
      ∧ voucherWellFormed (voucherFor 42 99999 12586) = true
      ∧ classify ready.account.live.base ready.account.live.marks 42 = .eligible
      ∧ classify ready.account.live.base ready.account.live.marks 73 = .eligible
      ∧ ready.clock.day ≤ fullUseBy (voucherFor 42 99999 12586).useBy ∧ ready.account.live.energy + 99999 ≤ 999999
      ∧ ready.journal.slot = none ∧ ready.journal.writeState = .idle ∧ ready.journal.newestSeq < 4294967294
      ∧ ready.power.writeSafe = true := by
  unfold accountOpen; decide +kernel

theorem witness_DeliveredVouchers_duplicate :
    accountOpen ready ∧ accountQuiet ready ∧ tagMatches (ownKey ready) (voucherFor 41 100 12600) = true
      ∧ voucherWellFormed (voucherFor 41 100 12600) = true ∧ ready.account.live.settled 41 := by
  unfold accountOpen accountQuiet Record.settled; decide +kernel

/-- The final refusals: a wrong tag, an amount of 0, a use-by day of yesterday; with a receipt's room, and with none. -/
theorem witness_DeliveredVouchers_refused :
    tagMatches (ownKey ready) { voucherFor 42 100 12600 with tag := (voucherFor 42 100 12600).tag + 1 } = false
      ∧ tagMatches (ownKey ready) (voucherFor 42 0 12600) = true ∧ voucherWellFormed (voucherFor 42 0 12600) = false
      ∧ tagMatches (ownKey ready) (voucherFor 42 100 12585) = true ∧ voucherWellFormed (voucherFor 42 100 12585) = true
      ∧ fullUseBy (voucherFor 42 100 12585).useBy < ready.clock.day ∧ receiptRoom ready ready.account.live 1 0
      ∧ accountQuiet { ready with account := { ready.account with live := { rec0 with counter := some 16 } } }
      ∧ ({ rec0 with counter := some 16 } : Record).counter = some ({ rec0 with counter := some 16 } : Record).reserve := by
  unfold accountQuiet receiptRoom; decide +kernel

/-- The pending outcomes: the first serial AHEAD of the window, and 1 Wh too many. -/
theorem witness_DeliveredVouchers_pending :
    tagMatches (ownKey ready) (voucherFor 74 100 12600) = true ∧ voucherWellFormed (voucherFor 74 100 12600) = true
      ∧ classify ready.account.live.base ready.account.live.marks 74 = .ahead
      ∧ tagMatches (ownKey ready) (voucherFor 42 99999 12600) = true ∧ voucherWellFormed (voucherFor 42 99999 12600) = true
      ∧ 999999 < (rich 900001).account.live.energy + 99999 := by decide +kernel

/-- While another application is in flight, with room in the list and with a full one; a serial that the list holds; HELD;
and an account that does not listen. -/
theorem witness_DeliveredVouchers_waits :
    accountOpen flying ∧ entryWith 42 flying.account.pendingOwn = none ∧ flying.account.flight.isSome = true
      ∧ flying.account.pendingOwn.length < 4 ∧ entryWith 42 [owing 42 none] = some (owing 42 none)
      ∧ 4 ≤ [owing 42 none, owing 43 none, owing 44 none, owing 50 none].length
      ∧ ([owing 42 none, owing 43 none, owing 44 none, owing 50 none].getLast?).map (fun e => e.voucher.serial) = some 50
      ∧ accountOpen heldBase ∧ heldBase.account.live.held = true ∧ accountQuiet heldBase
      ∧ entryWith 42 heldBase.account.pendingOwn = none
      ∧ State.reset.ctl.account.live.commissioned = false := by
  unfold accountOpen accountQuiet; decide

/-- A list's entry not yet examined, whose voucher was typed. -/
def waiting (serial : Nat) : PendingEntry := { owing serial none with unexamined := true, answerTo := some 4 }

/-- A full list whose highest entry, not yet examined or examined, gives way to a newcomer of the serial below it, in flight and
under HELD; and under HELD a full list of lower serials. -/
theorem witness_DeliveredVouchers_displaces :
    accountOpen { flying with account := { flying.account with
        pendingOwn := [owing 43 none, owing 44 none, owing 45 none, waiting 50] } }
      ∧ 4 ≤ [owing 43 none, owing 44 none, owing 45 none, waiting 50].length
      ∧ [owing 43 none, owing 44 none, owing 45 none, waiting 50].getLast? = some (waiting 50)
      ∧ [owing 43 none, owing 44 none, owing 45 none, owing 50 none].getLast? = some (owing 50 none)
      ∧ 49 < (waiting 50).voucher.serial ∧ (owing 50 none).voucher.serial ≤ 51
      ∧ entryWith 49 [owing 43 none, owing 44 none, owing 45 none, waiting 50] = none
      ∧ accountOpen (underRecord { rec0 with held := true }) ∧ (underRecord { rec0 with held := true }).account.pass = none := by
  unfold accountOpen; decide

/-- R36, R28: the displaced entry is answered NOT-TAKEN. -/
theorem test_displaced_entry_is_answered :
    (deliver (voucherFor 49 100 12600) (some 5) { flying with account := { flying.account with
        pendingOwn := [owing 43 none, owing 44 none, owing 45 none, waiting 50] } }).inTransit = [.outcomeAnswer 4 .notTaken] := by
  decide +kernel

/-- While another application is in flight a full list of lower serials refuses the voucher, and the delivering block is told;
one of a lower serial is taken, and an entry goes behind a lower serial and before a higher one. -/
theorem witness_DeliveredVouchers_taken :
    let c : Controller := { flying with account := { flying.account with
      pendingOwn := [owing 43 none, owing 44 none, owing 45 none, owing 50 none] } }
    accountOpen c ∧ c.account.flight.isSome = true ∧ 4 ≤ c.account.pendingOwn.length
      ∧ (c.account.pendingOwn.getLast?).map (fun e => e.voucher.serial) = some 50
      ∧ (∀ e : PendingEntry, e ∈ c.account.pendingOwn → e.voucher.serial ≠ 51)
      ∧ deliveryTaken (voucherFor 51 100 12600) c = false ∧ deliveryTaken (voucherFor 49 100 12600) c = true
      ∧ (∀ x : PendingEntry, x ∈ [owing 43 none] → x.voucher.serial ≤ (owing 44 none).voucher.serial)
      ∧ (∀ x : PendingEntry, ([] : List PendingEntry).head? = some x → (owing 44 none).voucher.serial < x.voucher.serial) := by
  unfold accountOpen
  refine ⟨by decide, by decide, by decide, by decide, by decide, by decide +kernel, by decide +kernel, by decide, ?_⟩
  intro x h; cases h

def dozing : Controller := { base with radio := Radio.started true 0 }

def receiving : Controller := { base with radio := { base.radio with rx := .receiving, reception := some [] } }

theorem witness_RadioReceives_states :
    dozing.power.mainOn = true ∧ dozing.radio.active = true ∧ dozing.radio.rx = .doze ∧ base.radio.rx = .listen
      ∧ receiving.radio.rx = .receiving ∧ receiving.radio.rx ≠ .listen ∧ base.radio.hold.isSome = true
      ∧ base.exchange.hailer = .idle ∧ base.exchange.asker = .idle ∧ slotsEmpty base.channel = true
      ∧ slotsEmpty (sending false (.final (.ask ask0)) 0).channel = false := by decide

def ownTook : AirFrame := .took { took0 with header := { header0 with sender := 731502 } }

/-- Bytes still to come, with one byte and with one short of the class; class 4; a bad frame, the station's own and a good
one. -/
theorem witness_RadioReceives_frames :
    receiving.power.mainOn = true ∧ receiving.radio.active = true ∧ receiving.radio.rx = .receiving
      ∧ (receiving.radio.reception.getD [] ++ [4#8]).length < 2
      ∧ fieldAt (List.replicate 31 0#8) 1 1 ≤ 3 ∧ (List.replicate 31 0#8).length < 16 + 16 * 2 ^ fieldAt (List.replicate 31 0#8) 1 1
      ∧ 2 ≤ [4#8, 4#8].length ∧ 3 < fieldAt [4#8, 4#8] 1 1
      ∧ 16 + 16 * 2 ^ fieldAt (List.replicate 32 0#8) 1 1 ≤ (List.replicate 32 0#8).length
      ∧ crcPasses (List.replicate 32 0#8) = false
      ∧ crcPasses (frameBytes ownTook) = true ∧ fieldAt (frameBytes ownTook) 2 4 = ownKit receiving
      ∧ fieldAt (frameBytes (.took took0)) 1 1 ≤ 3
      ∧ 16 + 16 * 2 ^ fieldAt (frameBytes (.took took0)) 1 1 ≤ (frameBytes (.took took0)).length
      ∧ judgeFrame (ownKit receiving) (frameBytes (.took took0)) = .good (.took took0) := by
  decide +kernel

/-- A header of a kind `k` and class 1, a payload of burst 0, a key count `n` and four keys, and their CRC. -/
def tookBytes (k n : Nat) : List Byte :=
  withCrc (bytesOf 1 k ++ bytesOf 1 1 ++ bytesOf 4 50 ++ bytesOf 4 0 ++ bytesOf 2 12586 ++ bytesOf 1 2 ++ bytesOf 1 9
    ++ bytesOf 1 0 ++ bytesOf 1 n ++ (List.replicate 4 (bytesOf 1 1 ++ bytesOf 4 60 ++ bytesOf 2 3)).flatten ++ bytesOf 2 0)

/-- A TOOK's key count of 4 passes and is read, unless the sender's number is the station's own. -/
theorem witness_RadioReceives_checks :
    crcPasses (tookBytes 4 4) = true ∧ fieldAt (tookBytes 4 4) 2 4 ≠ 731502
      ∧ (tookBytes 4 4).length = 16 + 16 * 2 ^ fieldAt (tookBytes 4 4) 1 1
      ∧ judgeFrame 731502 (tookBytes 4 4) = .good (.took { took0 with keys := List.replicate 4 ⟨1, 60, 3⟩ })
      ∧ judgeFrame 50 (tookBytes 4 4) = .discarded false := by decide +kernel

/-- A key count of 5, a kind of another class and a kind of none are discarded and counted. -/
theorem witness_RadioReceives_limits :
    crcPasses (tookBytes 4 5) = true ∧ judgeFrame 731502 (tookBytes 4 5) = .discarded true
      ∧ judgeFrame 731502 (tookBytes 2 4) = .discarded true ∧ judgeFrame 731502 (tookBytes 5 4) = .discarded true := by decide +kernel

theorem witness_OutputsFollowTheState :
    SwitchSafe base.switch ∧ gateClosed base = true ∧ base.meter.mode = .sampling
      ∧ (∃ t, exec .secondEventMeter (st base) = .next t) ∧ State.reset.ctl.meter.mode = .idle
      ∧ (onAir (.hail hail0)).params = some par ∧ (onAir (.hail hail0)).radio.onAir = some (.hail hail0)
      ∧ frameGood (.hail hail0) = true ∧ frameGood (.took took0) = true ∧ base.keypad.entry ≠ .showing
      ∧ base.power.mainOn = true ∧ dark.power.mainOn = false
      ∧ { base.keypad with entry := .showing, phase := some (.lit 1), display := [⟨.red, 1⟩] }.phase = some (.lit 1) := by
  refine ⟨⟨by decide, by decide, by decide, ?_, by decide⟩, by decide, rfl, ⟨_, rfl⟩, rfl, rfl, rfl, by decide, by decide,
    by decide, rfl, rfl, rfl⟩
  intro n h; cases h

def keyed (e : EntryState) (ds : List (Fin 10)) : Controller :=
  { base with keypad := { base.keypad with entry := e, buffer := ds, interKey := true } }

theorem witness_KeysMakeSequences_keys :
    base.power.mainOn = true ∧ base.keypad.entry = .idle ∧ (keyed .entry []).keypad.entry = .entry
      ∧ (keyed .foreignTarget (List.replicate 7 1)).keypad.entry = .foreignTarget
      ∧ (keyed .foreignTarget (List.replicate 7 1)).keypad.buffer.length < 8 ∧ (keyed .showing []).keypad.entry = .showing
      ∧ (keyed .entry []).keypad.interKey = true ∧ State.reset.ctl.account.state = .uncommissioned := by decide

/-- No condition, and conditions of codes 1 and 11; the figures of R184, and the number 0. -/
theorem witness_KeysMakeSequences_numbers :
    highestCode [] = 0 ∧ [Condition.storeFull, .bypass] ≠ [] ∧ highestCode [.storeFull, .bypass] = 11 ∧ 0 < 10000000000
      ∧ numberGroups 0 = [⟨.amber, 10⟩] ∧ (9999999999 : Nat) < 10000000000 ∧ (numberGroups 9999999999).length = 10 := by decide +kernel

/-- An own code for serial 42: kind 1, amount 100, residue 600, tag 0. -/
def code42 : List (Fin 10) := [0, 0, 4, 2, 1, 0, 0, 1, 0, 0, 6, 0, 0, 0, 0, 0, 0, 0, 0, 0, 0]

def typed (e : EntryState) (ds : List (Fin 10)) : Controller :=
  { timed with keypad := { timed.keypad with entry := e, buffer := ds, interKey := true } }

theorem witness_KeysMakeSequences_own :
    (typed .entry code42).account.state ≠ .uncommissioned ∧ (typed .entry code42).decommissioning = false
      ∧ cleanMemory (typed .entry code42) ∧ (typed .entry code42).keypad.entry = .entry
      ∧ (typed .entry code42).keypad.buffer.length = 21 ∧ digitsAt (typed .entry code42).keypad.buffer 0 4 ≠ 0
      ∧ deliveryTaken (codeVoucher 731502 .set 12586 code42) (typed .entry []) = true
      ∧ digitsAt (List.replicate 21 0) 0 4 = 0 ∧ (typed .entry [1, 2]).keypad.buffer.length ≠ 21 := by decide +kernel

/-- A full list refuses what comes late: the delivery is not taken. -/
theorem witness_KeysMakeSequences_notTaken :
    deliveryTaken (codeVoucher 731502 .set 12586 code42) { typed .entry [] with account := { base.account with
      flight := some flight0
      pendingOwn := [1, 2, 3, 4].map (fun n => ⟨{ voucher0 with serial := n }, false, false, false, none, none⟩) } } = false := by
  decide +kernel

def code60 : List (Fin 10) := [0, 0, 0, 0, 0, 0, 6, 0] ++ code42

/-- A single digit 3, and the own target typed as a foreign one. -/
theorem witness_KeysMakeSequences_ownTarget :
    (typed .entry [3]).keypad.buffer = [3] ∧ 2 < (3 : Fin 10).val
      ∧ (typed .foreignCode ([0, 0, 7, 3, 1, 5, 0, 2] ++ code42)).keypad.buffer.length = 29
      ∧ digitsAt ([0, 0, 7, 3, 1, 5, 0, 2] ++ code42) 0 8 = ownKit (typed .entry [])
      ∧ ownKit (typed .entry []) ≠ 0 ∧ ([0, 0, 7, 3, 1, 5, 0, 2] ++ code42).drop 8 = code42 := by decide +kernel

/-- A foreign code: stored, held already, retired, without room, with the time UNSET, of target 0 and of serial 0. -/
theorem witness_KeysMakeSequences_foreignAnswers :
    digitsAt code60 0 8 = 60 ∧ digitsAt code60 8 4 = 42 ∧ digitsAt (List.replicate 29 (0 : Fin 10)) 0 8 = 0
      ∧ digitsAt ([0, 0, 0, 0, 0, 0, 6, 0] ++ List.replicate 21 (0 : Fin 10)) 8 4 = 0 ∧ base.clock.timeState = .unset
      ∧ holdsVoucher (holding1 voucher1) (voucherKey voucher1) = true
      ∧ { base.store with retired := [voucherKey voucher1] }.retired.contains (voucherKey voucher1) = true
      ∧ roomFor 0 (voucherView { base with store := { base.store with
          vouchers := List.replicate 48 (some { voucher := voucher1, arrival := 0, isLocal := false }) } }) = none := by
  decide +kernel

theorem witness_KeysMakeSequences_foreign :
    (typed .foreignCode code60).keypad.entry = .foreignCode ∧ (typed .foreignCode code60).keypad.buffer.length = 29
      ∧ decodeForeignCode (ownKit (typed .foreignCode code60)) .set 12586 code60
        = .foreign (codeVoucher 60 .set 12586 code42)
      ∧ holdsVoucher (typed .foreignCode code60) (voucherKey (codeVoucher 60 .set 12586 code42)) = false
      ∧ (typed .foreignCode code60).store.retired.contains (voucherKey (codeVoucher 60 .set 12586 code42)) = false
      ∧ roomFor 0 (voucherView (typed .foreignCode code60)) = some 0
      ∧ (typed .foreignCode code42).keypad.buffer.length ≠ 29 := by decide +kernel

/-- A query typed with a double error in the account's region. -/
def unreadable (d : Fin 10) : Controller := { typed .entry [d] with check := heldBad.check }

theorem witness_KeysMakeSequences_unreadable :
    (unreadable 0).power.mainOn = true ∧ (unreadable 0).account.state ≠ .uncommissioned ∧ (unreadable 0).decommissioning = false
      ∧ (unreadable 0).keypad.entry = .entry ∧ (unreadable 0).keypad.buffer = [0] ∧ (unreadable 1).keypad.buffer = [1]
      ∧ ⟨.account, [38, 0], 5⟩ ∈ (unreadable 0).check.bad ∧ inAccount .account = true := by decide

def evaluating : Controller := { base with keypad := { base.keypad with entry := .evaluating, answerWait := true, evaluation := 1 } }

def showing (ph : DisplayPhase) (q : List BlinkGroup) : Controller :=
  { base with keypad := { base.keypad with entry := .showing, display := q, phase := some ph } }

theorem witness_AnswersAreShown :
    evaluating.power.mainOn = true ∧ evaluating.keypad.entry = .evaluating ∧ evaluating.keypad.answerWait = true
      ∧ evaluating.keypad.evaluation = 1 ∧ base.keypad.entry ≠ .evaluating
      ∧ (showing .lead [⟨.red, 1⟩]).keypad.entry = .showing ∧ (showing .lead [⟨.red, 1⟩]).keypad.display = ⟨.red, 1⟩ :: []
      ∧ (showing .gap [⟨.red, 1⟩]).keypad.phase = some .gap ∧ (showing (.lit 1) [⟨.red, 1⟩]).keypad.phase = some (.lit 1)
      ∧ (showing (.dark 1) [⟨.red, 2⟩]).keypad.phase = some (.dark (0 + 1))
      ∧ (showing (.dark 0) [⟨.red, 2⟩]).keypad.display = [⟨.red, 2⟩]
      ∧ (showing (.dark 0) [⟨.red, 2⟩, ⟨.red, 1⟩]).keypad.display = ⟨.red, 2⟩ :: ⟨.red, 1⟩ :: [] := by decide

def served (code : Option Nat) (l : List Response) : Controller :=
  { base with service := { base.service with inProgress := code, responses := l } }

/-- A frame in reception with `l` collected. -/
def collecting (l : List Byte) : Controller := { base with service := { base.service with line := .frame, frame := l } }

/-- The length byte's bound 200 and 201, a frame one byte short, and a whole one with a right and with a wrong CRC. -/
theorem witness_ServiceFramesAreJudged_line :
    (collecting []).power.mainOn = true ∧ (collecting []).service.line = .frame ∧ [1#8].length < 2
      ∧ fieldAt [1#8, 200#8] 1 1 ≤ 200 ∧ [1#8, 200#8].length < fieldAt [1#8, 200#8] 1 1 + 4
      ∧ 200 < fieldAt [1#8, 201#8] 1 1 ∧ fieldAt [1#8, 0#8, 0#8, 0#8] 1 1 + 4 ≤ [1#8, 0#8, 0#8, 0#8].length
      ∧ crcPasses [1#8, 0#8, 0#8, 0#8] = false ∧ crcPasses (withCrc [1#8, 0#8]) = true
      ∧ fieldAt (withCrc [1#8, 0#8]) 1 1 + 4 ≤ (withCrc [1#8, 0#8]).length ∧ base.service.line = .hunt
      ∧ (0x7F#8 : Byte) ≠ 0x7E#8 ∧ (List.replicate 200 0#8).length ≤ 200 := by decide +kernel

/-- A command that the line has collected, in progress and in transit, and one that comes whole, none being in progress. -/
theorem witness_ServiceFramesAreJudged_begin :
    mayBegin (.identify []) { served (some 1) [] with inTransit := [.identify []] } ∧ mayBegin (.identify []) base :=
  ⟨.inl (List.mem_singleton.mpr rfl), .inr rfl⟩

theorem witness_ServiceFramesAreJudged :
    base.power.mainOn = true ∧ serviceCode (.status []) = some 4
      ∧ (served (some 2) []).service.inProgress.isSome = true ∧ Instr.status [] ∉ (served (some 2) []).inTransit
      ∧ base.service.inProgress = none
      ∧ ([1#8] : List Byte).length ≠ 0 ∧ base.params.isSome = true ∧ (List.replicate 38 0#8).length = 38
      ∧ State.reset.ctl.params = none ∧ State.reset.ctl.service.inProgress = none ∧ base.params = some par ∧ par.role = .ordinary
      ∧ ([0#8] : List Byte).length = 1 + 16 * fieldAt [0#8] 0 1
      ∧ (served (some 8) [⟨8, .ok, [], true⟩]).service.responses = ⟨8, .ok, [], true⟩ :: [] := by decide

/-- The codes at the table's edges, 00h, 01h, 09h and 0Ah, and a response with a body. -/
theorem witness_ServiceFramesAreJudged_bytes :
    commandOf 1#8 [] = .identify [] ∧ commandOf 9#8 [] = .decommission [] ∧ (0#8 : Byte).toNat = 0 ∧ 9 < (10#8 : Byte).toNat
      ∧ (responseBytes ⟨7, .busy, [5#8], true⟩).take 5 = [0x7E#8, 7#8, 2#8, 5#8, 5#8] := by decide +kernel

def agent : Controller := { base with params := some { par with role := .agent } }

theorem witness_ServiceInformation_refused :
    ⟨.account, [38, 0], 5⟩ ∈ heldBad.check.bad ∧ heldBad.power.mainOn = true ∧ heldBad.service.inProgress = none := by decide

/-- The second's and the fault's bounds: 86,399 and 86,400, bits 38 and 39. -/
theorem witness_ServiceInformation :
    base.power.mainOn = true ∧ base.service.inProgress = none ∧ base.check.bad = []
      ∧ fieldAt [0#8, 1#8, 1#8, 0x51#8, 0x7F#8] 2 3 ≤ 86399 ∧ 86399 < fieldAt [0#8, 1#8, 1#8, 0x51#8, 0x80#8] 2 3
      ∧ isAgent agent = true ∧ isAgent base = false ∧ timed.clock.timeState = .set ∧ base.clock.timeState = .unset
      ∧ base.clock.day * 86400 + base.clock.second ≤ 0 * 86400 + 0
      ∧ (clockAt 5 0 .provisional).clock.timeState = .provisional
      ∧ 4 * 86400 + 86399 < (clockAt 5 0 .provisional).clock.day * 86400 + (clockAt 5 0 .provisional).clock.second
      ∧ (38#8).toNat ≤ 38 ∧ 38 < (39#8).toNat ∧ (2#8).toNat ≤ 2 ∧ 2 < (3#8).toNat := by decide

theorem witness_InjectAndCollect_bounds :
    agent.power.mainOn = true ∧ agent.service.inProgress = none ∧ agent.params = some { par with role := .agent }
      ∧ ({ par with role := .agent } : Params).role = .agent ∧ cleanMemory agent
      ∧ ([0#8] : List Byte).length = 1 + 16 * fieldAt [0#8] 0 1 ∧ fieldAt [0#8] 0 1 = 0
      ∧ (9#8 :: List.replicate 144 0#8).length = 1 + 16 * fieldAt (9#8 :: List.replicate 144 0#8) 0 1
      ∧ 8 < fieldAt (9#8 :: List.replicate 144 0#8) 0 1 := by decide +kernel

/-- One voucher and eight; one that spells none, an own one, a foreign one held, retired, without room and with room. -/
theorem witness_InjectAndCollect_vouchers :
    item0.inBytes = true ∧ 1 ≤ [item0].length ∧ (List.replicate 8 item0).length ≤ 8
      ∧ voucherOfItem { item0 with hop := 0 } = some voucher1 ∧ voucher1.target ≠ ownKit agent
      ∧ voucherOfItem { item0 with serial := 0, hop := 0 } = none
      ∧ voucherOfItem { item0 with target := 731502, hop := 0 } = some { voucher1 with target := 731502 }
      ∧ emptySlot 0 (voucherView agent) = some 0 ∧ voucherKey voucher1 ∉ agent.store.retired
      ∧ voucherKey voucher1 ∈ [voucherKey voucher1] ∧ some { voucher := voucher1, arrival := 0, isLocal := false }
        ∈ (holding1 voucher1).store.vouchers := by decide

/-- A voucher table of one slot with an entry of hop 1 gives way to the newcomer, and one of hop 0 does not. -/
theorem witness_InjectAndCollect_displaced :
    (∀ e : VoucherEntry, some e ∈ [some (⟨{ voucher1 with serial := 4, hop := 1 }, 0, false⟩ : VoucherEntry)] →
      voucherKey e.voucher ≠ voucherKey voucher1)
      ∧ none ∉ [some (⟨{ voucher1 with serial := 4, hop := 1 }, 0, false⟩ : VoucherEntry)]
      ∧ (∀ (m : Nat) (f : VoucherEntry),
        [some (⟨{ voucher1 with serial := 4, hop := 1 }, 0, false⟩ : VoucherEntry)][m]? = some (some f) →
          f.voucher.hop < 1 ∨ f.voucher.hop = 1 ∧ (0 < f.arrival ∨ 0 = f.arrival ∧ 0 ≤ m))
      ∧ ∀ e : Option VoucherEntry, e ∈ [some (⟨voucher1, 0, false⟩ : VoucherEntry)] →
        ∃ f : VoucherEntry, e = some f ∧ f.voucher.hop = 0 := by
  refine ⟨?_, by decide, ?_, ?_⟩
  · intro e h; cases List.mem_singleton.mp h; decide
  · intro m f h
    cases m with
    | zero => cases h; exact .inr ⟨rfl, .inr ⟨rfl, Nat.le_refl 0⟩⟩
    | succ m => simp at h
  · intro e h; exact ⟨_, List.mem_singleton.mp h, rfl⟩

def receipt0 : Receipt := fillReceipt .status 0 false base

def logged (n : Nat) : Controller := { agent with store := { agent.store with log := List.replicate n receipt0 } }

/-- The log empty, with up to six receipts, and with more; own receipts that wait in the table. -/
theorem witness_InjectAndCollect_log :
    mayBegin (.collect []) (logged 6) ∧ cleanMemory (logged 6) ∧ (logged 0).store.log = [] ∧ (logged 6).store.log.length ≤ 6
      ∧ 6 < (logged 7).store.log.length ∧ (logged 7).store.log ≠ []
      ∧ (some (ownEntry .badTag) :: List.replicate 47 none).length = 48
      ∧ ownInOrder (some (ownEntry .badTag) :: List.replicate 47 none) [(0, ownEntry .badTag)] := by
  refine ⟨.inr rfl, by decide, rfl, by decide, by decide, by decide, by decide, one_own _ _ rfl⟩

/-- R110, R196: a COLLECT of a full log lets the own receipt that waits move to it. -/
theorem test_collect_moves_own :
    (let c := after (.collect []) { logged 256 with store := { (logged 256).store with
        receipts := some (ownEntry .badTag) :: List.replicate 47 none } };
      (c.store.log.length, c.store.receipts.getD 0 none)) = (249, none) := by decide +kernel

/-- A COMMISSION body with `par`'s values. -/
def parBody : List Byte :=
  bytesOf 4 731502 ++ List.replicate 16 7#8 ++ bytesOf 1 1 ++ bytesOf 2 1000 ++ bytesOf 1 10 ++ bytesOf 2 60 ++ bytesOf 1 8
    ++ bytesOf 1 2 ++ bytesOf 1 20 ++ bytesOf 1 5 ++ bytesOf 2 100 ++ bytesOf 1 20 ++ bytesOf 2 1400 ++ bytesOf 1 14 ++ bytesOf 1 7
    ++ bytesOf 1 2

theorem witness_CommissionAndDecommission_commission :
    State.reset.ctl.power.mainOn = true ∧ State.reset.ctl.service.inProgress = none ∧ State.reset.ctl.params = none
      ∧ parBody.length = 38 ∧ readParams parBody = some par ∧ readParams (List.replicate 38 0#8) = none
      ∧ State.reset.ctl.power.writeSafe = false
      ∧ { base.journal with commissioning := some (par, .ended true) }.commissioning = some (par, .ended true)
      ∧ (served (some 2) []).service.inProgress = some 2 := by decide +kernel

/-- A body with its first byte, its listen hold or its capture mode beyond the range, and at the range's end (R192). -/
theorem test_parameter_bounds :
    readParams (parBody.set 23 4#8) = none ∧ readParams (parBody.set 23 5#8) = some { par with listenHold := 5 }
      ∧ readParams (parBody.set 27 5#8) = none ∧ readParams (parBody.set 27 4#8) = some { par with burst := 4 }
      ∧ readParams (parBody.set 0 0xFF#8) = none ∧ readParams (parBody.set 37 3#8) = none
      ∧ readParams (parBody.set 37 1#8) = some { par with capture := .first } := by decide +kernel

theorem witness_CommissionAndDecommission_decommission :
    base.service.inProgress = none ∧ base.params = some par ∧ (bytesOf 4 (decommissionCode par)).length = 4
      ∧ fieldAt (bytesOf 4 (decommissionCode par)) 0 4 = decommissionCode par
      ∧ fieldAt (bytesOf 4 (decommissionCode par + 1)) 0 4 ≠ decommissionCode par
      ∧ fieldAt (bytesOf 4 99999999) 0 4 ≤ 99999999 ∧ 99999999 < fieldAt (bytesOf 4 100000000) 0 4
      ∧ base.journal.slot = none ∧ writing.journal.slot.isSome = true := by decide +kernel

theorem witness_CommissionAndDecommission_erased :
    { base with journal := { base.journal with writeState := .erasing } }.journal.writeState = .erasing
      ∧ { base with journal := { base.journal with writeState := .erasing } }.journal.erasureWaits = false
      ∧ (served (some 9) []).service.inProgress = some 9 := by decide

def flawed (u : EntryUnit) (bits : List Nat) : Controller :=
  { base with check := { base.check with bad := [{ unit := u, flips := bits, address := 5 }] } }

/-- 10.5.1: a double error in a voucher slot is found once, by the HAIL's composition, and not again by STATUS's reads. -/
theorem test_dropped_slot_found_once :
    (composeHail (flawed (.voucherSlot 30) [17, 0])).check.store = ⟨0, 1, some ⟨5, .double⟩⟩
      ∧ (doStatus (composeHail (flawed (.voucherSlot 30) [17, 0]))).check.store = ⟨0, 1, none⟩ := by decide +kernel

/-- R179, R113: a fault armed for the STORE is planted as a receipt is stamped, and shows as the ageing reads that receipt. -/
theorem test_stamped_fault_shows :
    (storeRollover 5 { base with
      check := { base.check with armed := some ⟨.store, 1, 3⟩ }
      store := { base.store with receipts := [some ⟨fillReceipt .status 0 false base, 0, true⟩] } }).check.store.corrected = 1 := by
  decide +kernel

theorem witness_CheckedMemory :
    base.check.bad = [] ∧ { base.check with armed := some ⟨.store, 2, 38⟩ }.armed = some ⟨.store, 2, 38⟩
      ∧ (flawed (.voucherSlot 47) [38]).check.bad = [⟨.voucherSlot 47, [38], 5⟩] ∧ inVouchers (.voucherSlot 47) = true
      ∧ (flawed (.voucherSlot 47) [38, 0]).check.bad = [⟨.voucherSlot 47, [38, 0], 5⟩]
      ∧ (flawed (.retiredKey ⟨.voucher, 60, 3⟩) [38, 0]).check.bad = [⟨.retiredKey ⟨.voucher, 60, 3⟩, [38, 0], 5⟩]
      ∧ inRetired (.retiredKey ⟨.voucher, 60, 3⟩) = true
      ∧ (flawed .account [1, 0]).power.mainOn = true ∧ (flawed .account [1, 0]).account.live.commissioned = true
      ∧ (flawed .account [1, 0]).decommissioning = false ∧ (flawed .account [1, 0]).account.live.held = false
      ∧ (flawed .account [1, 0]).check.bad = [⟨.account, [1, 0], 5⟩] ∧ (flawed .account [1, 0]).check.armed = none
      ∧ (flawed .account [1, 0]).account.flight = none ∧ (flawed .account [1, 0]).clock.timeState = .unset
      ∧ (flawed .account [1, 0]).journal.slot = none ∧ (flawed .account [1, 0]).journal.writeState = .idle
      ∧ (flawed .account [1, 0]).account.state ≠ .held := by decide

/-- A double error found with the day known: the STATUS for HELD, first raised, is owed. -/
theorem test_held_owes_a_status :
    (after .chargeReport { flawed .account [1, 0] with clock := timed.clock }).account.statusOwed = true
      ∧ (after .chargeReport (flawed .account [1, 0])).account.statusOwed = false := by decide

/-- An application in flight, beside a list, as a double error is found in the record. -/
def overtaking (l : List PendingEntry) (pass : Option (List Nat)) (slot : Option Commit) : Controller :=
  { flawed .account [1, 0] with
    account := { base.account with flight := some flight0, staged := some { rec0 with energy := 600 }, pendingOwn := l, pass := pass }
    journal := { base.journal with slot := slot } }

/-- HELD set with an application in flight: its voucher in the list (under a pass), room in the list, a full list with a
higher serial last, and one without; the commit slot empty, and with the staged commit in it. -/
theorem witness_CheckedMemory_overtaken :
    (overtaking [owing 42 none] (some [42]) none).power.mainOn = true
      ∧ (overtaking [owing 42 none] (some [42]) none).account.live.commissioned = true
      ∧ (overtaking [owing 42 none] (some [42]) none).decommissioning = false
      ∧ (overtaking [owing 42 none] (some [42]) none).account.live.held = false
      ∧ (overtaking [owing 42 none] (some [42]) none).check.bad = [⟨.account, [1, 0], 5⟩]
      ∧ (overtaking [owing 42 none] (some [42]) none).check.armed = none
      ∧ (overtaking [owing 42 none] (some [42]) none).account.flight = some flight0
      ∧ (overtaking [owing 42 none] (some [42]) none).clock.timeState = .unset
      ∧ (overtaking [owing 42 none] (some [42]) none).account.state ≠ .held
      ∧ entryWith flight0.voucher.serial [owing 42 none] = some (owing 42 none)
      ∧ (∀ e : PendingEntry, e ∈ [owing 42 none] → e.unexamined = false ∧ e.voucher.serial ∈ [42])
      ∧ (overtaking [owing 42 none] (some [42]) none).journal.slot = none
      ∧ (overtaking [owing 42 none] (some [42]) none).journal.writeState = .idle
      ∧ (overtaking [] none (some { commit0 with kind := .staged })).journal.slot = some { commit0 with kind := .staged }
      ∧ entryWith flight0.voucher.serial [] = none
      ∧ [owing 50 none, owing 51 none, owing 52 none, owing 53 none].getLast? = some (owing 53 none)
      ∧ [owing 38 none, owing 39 none, owing 40 none, owing 41 none].getLast? = some (owing 41 none)
      ∧ [owing 50 none, owing 51 none, owing 52 none, owing 53 none].Pairwise (fun x y => x.voucher.serial < y.voucher.serial)
      ∧ [owing 38 none, owing 39 none, owing 40 none, owing 41 none].Pairwise (fun x y => x.voucher.serial < y.voucher.serial) := by
  refine ⟨rfl, rfl, rfl, rfl, rfl, rfl, rfl, rfl, by decide, rfl, ?_, rfl, rfl, rfl, rfl, rfl, rfl, by decide, by decide⟩
  intro e h
  obtain rfl := List.mem_singleton.mp h
  exact ⟨rfl, by decide⟩

/-- R34: HELD overtakes an application in flight: the staged record is gone, the voucher stands in the list in commit, and the
keypad hears PENDING; a list full of lower serials refuses it and the keypad hears NOT-TAKEN. -/
theorem test_held_overtakes_an_application :
    (after .chargeReport (overtaking [] none none)).account.staged = none
      ∧ (after .chargeReport (overtaking [] none none)).account.pendingOwn.map (fun e => (e.voucher.serial, e.inCommit)) = [(42, true)]
      ∧ .outcomeAnswer 1 .pending ∈ (after .chargeReport (overtaking [] none none)).inTransit
      ∧ .outcomeAnswer 1 .notTaken ∈ (after .chargeReport
          (overtaking [owing 38 none, owing 39 none, owing 40 none, owing 41 none] none none)).inTransit := by decide

/-- An application in flight with a double error in its staged record, its voucher in the list. -/
def stagedFlawed : Controller :=
  { overtaking [owing 42 none] none none with check := { base.check with bad := [⟨.staged, [1, 0], 5⟩] } }

theorem witness_CheckedMemory_staged :
    stagedFlawed.power.mainOn = true ∧ stagedFlawed.account.live.commissioned = true ∧ stagedFlawed.decommissioning = false
      ∧ stagedFlawed.account.live.held = false ∧ stagedFlawed.check.bad = [⟨.staged, [1, 0], 5⟩]
      ∧ stagedFlawed.account.flight = some flight0 ∧ stagedFlawed.check.armed = none
      ∧ stagedFlawed.account.overtaken.contains .commitInhibitedReport = false
      ∧ entryWith flight0.voucher.serial stagedFlawed.account.pendingOwn = some (owing 42 none)
      ∧ inAccount .staged = true ∧ { base.check with armed := some ⟨.account, 1, 0⟩ }.armed = some ⟨.account, 1, 0⟩
      ∧ oneWhTaken { rec0 with energy := 0, lifeline := 0 } = { rec0 with energy := 0, lifeline := 0 }
      ∧ (some rec0).map oneWhTaken ≠ some rec0 := by decide

/-- R172: an error in the staged record leaves the region with that record, at an inhibited commit, unseen, and at HELD. -/
theorem test_staged_words_go_with_the_record :
    (after .commitInhibitedReport stagedFlawed).check.bad = []
      ∧ (after .commitInhibitedReport stagedFlawed).account.live.held = false
      ∧ (after .chargeReport stagedFlawed).check.bad = []
      ∧ (after .chargeReport stagedFlawed).account.live.held = true := by decide +kernel

/-- A fault armed for the account; a double error in a receipt slot, in an entry of the pending-own list, in an asker's entry
that is served and in one that is not, and in a logged receipt, at an AGENT station and at an ORDINARY one. -/
theorem witness_CheckedMemory_units :
    { base.check with armed := some ⟨.account, 2, 38⟩ }.armed = some ⟨.account, 2, 38⟩
      ∧ (flawed .account [0]).check.bad = [⟨.account, [0], 5⟩]
      ∧ (underRecord { rec0 with held := true }).account.live.held = true
      ∧ { State.reset.ctl.check with bad := [⟨.account, [38, 0], 5⟩] }.armed = none
      ∧ (flawed (.receiptSlot 47) [38, 0]).check.bad = [⟨.receiptSlot 47, [38, 0], 5⟩] ∧ inReceipts (.receiptSlot 47) = true
      ∧ (flawed (.pendingOwn 42) [38, 0]).check.bad = [⟨.pendingOwn 42, [38, 0], 5⟩] ∧ inPendingOwn (.pendingOwn 42) = true
      ∧ (flawed (.askEntry 50) [38, 0]).check.bad = [⟨.askEntry 50, [38, 0], 5⟩]
      ∧ (waitingTook (service0 [[]] 0 0)).exchange.service.map (fun sv => sv.asker) = some 50
      ∧ (fifth .carry carryWaiting (sendingBurst 2 [])).channel.carry = some (slot0 carryWaiting 4) ∧ base.channel.carry = none
      ∧ (flawed (.logEntry (receiptKey receipt0)) [38, 0]).check.armed = none ∧ receipt0 ∈ (logged 1).store.log
      ∧ isAgent (logged 1) = true ∧ (logged 1).store.receipts.length = 48 := by decide

/-- R108, R109, R175: a TOOK that lists no receipt key reads no receipt. -/
theorem test_took_without_keys_reads_nothing :
    (after (.tookReceived { took0 with header := { header0 with agent := true } } false)
      (flawed (.receiptSlot 3) [38])).check.store.corrected = 0 := by decide

/-- A Controller in use, with a second event in transit: its next step answers a next state. -/
def running : Controller := { base with inTransit := [.secondEventMeter] }

theorem witness_steps : ∃ t, step (st running) = .next t := ⟨_, rfl⟩

theorem witness_SwitchStaysSafe : SwitchSafe running.switch := by
  refine ⟨by decide, by decide, by decide, ?_, by decide⟩
  intro n h; cases h

theorem witness_SettledSerialsStaySettled :
    replacesRecord .chargeReport = false ∧ WindowSafe base.account ∧ (∃ t, exec .chargeReport (st base) = .next t)
      ∧ base.account.live.settled 43 := by
  refine ⟨rfl, ?_, ⟨_, rfl⟩, ?_⟩
  · intro r h; cases h
  · unfold Record.settled; decide

theorem witness_SettledSerialsStaySettled_page :
    (∀ p a, verifying.journal.commissioning ≠ some (p, .block a)) ∧ WindowSafe verifying.account
      ∧ ∃ t, exec (.verifyDone true) (st verifying) = .next t := by
  refine ⟨?_, ?_, ⟨_, rfl⟩⟩
  · intro p a h; cases h
  · intro r h; cases h

theorem witness_RegistersStayInRange :
    ParamsSafe running ∧ MeterSafe running.meter ∧ ClockSafe running.clock ∧ RadioSafe running.radio := by
  refine ⟨⟨?_, ?_⟩, by unfold MeterSafe; decide, ⟨by decide, by decide, by decide, ?_⟩, by unfold RadioSafe; decide⟩
  · intro p h; cases h; decide
  · intro p g h; cases h
  · intro d h; cases h

theorem witness_AccountStaysInRange :
    AccountSafe running ∧ ClockSafe running.clock ∧ ∀ i, nextCommand (st running) = some i → i.wellFormed = true := by
  refine ⟨⟨⟨by decide, by decide, by decide, by decide, ?_, by decide, by decide, by decide, by decide⟩, ?_, ?_, by decide⟩,
    ⟨by decide, by decide, by decide, ?_⟩, ?_⟩
  · intro n h; cases h; decide
  · intro r h; cases h
  · intro r h; cases h
  · intro d h; cases h
  · intro i h; cases h; rfl

theorem witness_CollectionsStayInRange : StoreSafe running := by unfold StoreSafe; decide

/-- A table with one foreign voucher of hop 8, the limit. -/
theorem witness_KeysAreHeldOnce :
    KeysSafe { holding1 { voucher1 with hop := 8 } with inTransit := [.secondEventMeter] }
      ∧ ∃ t, step (st { holding1 { voucher1 with hop := 8 } with inTransit := [.secondEventMeter] }) = .next t := by
  have hr : ∀ l : List (Option ReceiptEntry), l = List.replicate 48 none → ∀ e : ReceiptEntry, some e ∉ l := by
    rintro l rfl e h; simp at h
  have hm := only_first (⟨{ voucher1 with hop := 8 }, 0, false⟩ : VoucherEntry) 47
  refine ⟨⟨?_, ?_, ?_, ?_, ?_⟩, ⟨_, rfl⟩⟩
  · intro e h
    obtain ⟨i, hi⟩ := List.mem_iff_getElem?.mp h
    obtain ⟨-, rfl⟩ := hm i e hi
    decide
  · intro i j e f hi hj _
    rw [(hm i e hi).1, (hm j f hj).1]
  · intro e h; exact absurd h (hr _ rfl e)
  · intro e h; exact absurd h (hr _ rfl e)
  · intro i j e f hi; exact absurd (List.mem_of_getElem? hi) (hr _ rfl e)

end Sys2Proof.Tests
end

section
/-! PROOFS. The check function (R9), the tag message (R11) and the use-by day made from its residue (R14). -/

namespace Sys2Proof.Machine

/-! ### The CRC-16 register (R9) -/

/-- The bit that a shift moves out of the register is 1 exactly when the register is at least 8000h. -/
theorem check16_topBit (r : Check16) : r.getLsbD 15 = decide (32768 ≤ r.toNat) := by
  rw [show r.getLsbD 15 = r.msb from (BitVec.msb_eq_getLsbD_last r).symm, BitVec.msb_eq_decide]

/-- Where the bit shifted out is 1, doubling leaves the register 65,536 above what it holds; where it is 0, nothing is
lost. -/
theorem crcShift_toNat (r : Check16) :
    (crcShift r).toNat = if 32768 ≤ r.toNat then (2 * r.toNat - 65536) ^^^ 4129 else 2 * r.toNat := by
  have hr : r.toNat < 65536 := r.isLt
  simp only [crcShift, check16_topBit, decide_eq_true_eq]
  split
  · have hdouble : (r <<< 1).toNat = 2 * r.toNat - 65536 := by
      rw [BitVec.toNat_shiftLeft, Nat.shiftLeft_eq]; omega
    rw [BitVec.toNat_xor, hdouble]; rfl
  · rw [BitVec.toNat_shiftLeft, Nat.shiftLeft_eq]; omega

theorem crcShifts_toNat (n : Nat) (r : Check16) : (crcShifts n r).toNat = steppedRegister n r.toNat := by
  induction n generalizing r with
  | zero => rfl
  | succ n ih => rw [crcShifts, ih, crcShift_toNat, steppedRegister]

/-- A byte stands in the upper eight bits of the register when it is moved up by eight places. -/
theorem upperByte_toNat (b : Byte) : (b.zeroExtend 16 <<< 8).toNat = b.toNat * 256 := by
  have hb : b.toNat < 256 := b.isLt
  rw [BitVec.toNat_shiftLeft, BitVec.toNat_setWidth, Nat.shiftLeft_eq]
  omega

theorem crcByte_toNat (r : Check16) (b : Byte) :
    (crcByte r b).toNat = steppedRegister 8 (r.toNat ^^^ (b.toNat * 256)) := by
  rw [crcByte, crcShifts_toNat, BitVec.toNat_xor, upperByte_toNat]

/-- Bytes are taken in order: the last byte goes into the register that the bytes before it leave. -/
theorem crc16_concat (bs : List Byte) (b : Byte) : crc16 (bs ++ [b]) = crcByte (crc16 bs) b := by
  simp [crc16]

/-! ### The voucher tag (R11) -/

/-- The twelve bytes of the tag message, most significant first within each field. -/
theorem tagMessage_bytes (target serial kind amount residue : Nat) :
    tagMessage target serial kind amount residue =
      [BitVec.ofNat 8 (target / 16777216), BitVec.ofNat 8 (target / 65536), BitVec.ofNat 8 (target / 256),
        BitVec.ofNat 8 target, BitVec.ofNat 8 (serial / 256), BitVec.ofNat 8 serial, BitVec.ofNat 8 kind,
        BitVec.ofNat 8 (amount / 65536), BitVec.ofNat 8 (amount / 256), BitVec.ofNat 8 amount,
        BitVec.ofNat 8 (residue / 256), BitVec.ofNat 8 residue] := by
  simp [tagMessage, bytesOf]

/-- The residue of a use-by day is the one number that both forms of the day prescribe for the tag message. -/
theorem eq_useByResidue {u : UseBy} {residue : Nat} (hfull : ∀ day : Nat, u = .full day → residue = day % 1000)
    (hresidue : ∀ r : Nat, u = .residue r → residue = r) : residue = useByResidue u := by
  cases u with
  | full day => exact hfull day rfl
  | residue r => exact hresidue r rfl

/-- A tag is a number of at most eight decimal digits, whatever the key and the message. -/
theorem tagUnder_le (key msg : List Byte) : tagUnder key msg ≤ 99999999 :=
  Nat.le_of_lt_succ (Nat.mod_lt _ (by decide))

/-- Settles O8: the register is followed through one shift, eight shifts and one byte, and the tag message is written out
byte by byte. -/
theorem crc16AndTags : Obligations.Crc16AndTags := by
  refine ⟨⟨rfl, fun bs b => ?_, by decide +kernel⟩, ?_, by decide⟩
  · rw [crc16_concat, crcByte_toNat]
  · rintro key v residue H1 H2 msg hfull hresidue rfl rfl rfl
    rw [eq_useByResidue hfull hresidue, ← tagMessage_bytes]
    exact ⟨rfl, tagUnder_le _ _⟩

/-! ### The use-by day reconstructed from its residue (R14) -/

/-- The first candidate lies in the 1,000 days T − 500 to T + 499. -/
theorem firstCandidate_window (r T : Nat) :
    (T : Int) - 500 ≤ firstCandidate r T ∧ firstCandidate r T ≤ (T : Int) + 499 := by
  unfold firstCandidate; omega

/-- The first candidate is a day of the residue. -/
theorem firstCandidate_mod {r : Nat} (T : Nat) (hr : r < 1000) : firstCandidate r T % 1000 = (r : Int) := by
  unfold firstCandidate; omega

/-- Against a day of the epoch, no step of R14 takes a day before day 0: the reconstructed day, as an integer, is the first
candidate or lies 1,000 days from it. -/
theorem reconstruct_cast {r T : Nat} (hT : T ≤ 65535) :
    (reconstruct r T : Int) = if firstCandidate r T < 0 then firstCandidate r T + 1000
      else if 65535 < firstCandidate r T then firstCandidate r T - 1000 else firstCandidate r T := by
  obtain ⟨hlow, -⟩ := firstCandidate_window r T
  unfold reconstruct
  split
  · omega
  · split <;> omega

/-- Settles O9: the first candidate is the day D0, and a move by 1,000 keeps its residue. -/
theorem useByDayReconstructed : Obligations.UseByDayReconstructed := by
  intro r T hr hT
  obtain ⟨hlow, hhigh⟩ := firstCandidate_window r T
  have hmod := firstCandidate_mod T hr
  have hday := reconstruct_cast (r := r) hT
  refine ⟨⟨firstCandidate r T, hlow, hhigh, hmod, hday⟩, ?_⟩
  split at hday
  · omega
  · split at hday <;> omega

end Sys2Proof.Machine
end
